-- ==== Sys2Proof/Word.lean ====
section
/-! DEFINITION. The widths of the decoder block (00_scope.md R5, R7) and the type of its text. -/

namespace Sys2Proof

/-- A 32-bit value: the instruction word (`W_WORD`) or the program-counter input (`W_PC`) (R5, R26, R27). -/
abbrev Word := BitVec 32

/-- A 5-bit register index, the index of the register-name ROM (`ROM_INDEX_WIDTH`, R5, R70). -/
abbrev RegIdx := BitVec 5

/-- One byte of the caller's file (20_memory.md R42). -/
abbrev Byte := BitVec 8

/-- A string of characters (R7, R9): a ROM entry or an output line. Held as its list of characters, so that
concatenation is the `++` of lists. -/
abbrev Text := List Char

/-- A table of `ROM_DEPTH` = 32 name strings: the parameter `REG_NAMES` as it is given, or the whole ROM read out (R5,
10_state.md R20, R22). -/
abbrev RegNames := Vector Text 32

/-- The register-name ROM, as the 27 entries that `REG_NAMES` decides (10_state.md R22). The other five, 0, 3, 4, 5 and 31, are
fixed whatever `REG_NAMES` is given (10_state.md R21), so no value of this type decides them: `Machine.romNames` has them
wired in (log entry 13). -/
structure Rom where
  entry1       : Text
  entry2       : Text
  entries6to30 : Vector Text 25
  deriving DecidableEq, Repr

end Sys2Proof
end

