-- ==== Sys2Proof/Syntax.lean ====
section
/-! DEFINITION. The instructions of the opcode table, the mnemonics and the decoded record. Each instruction keeps every
field of its format (30_encoding.md R64, R65, R66), also those its template does not show. -/

namespace Sys2Proof

/-- The 43 recognized instructions (00_scope.md R2; 30_encoding.md R71, R72), one constructor per row of
spec/opcode_table.json, in its order. -/
inductive Instr where
  /-- R152, `000000ssssstttttdddddhhhhh000000`. -/
  | sll (rd rs rt shamt : BitVec 5)
  /-- R153, `000000ssssstttttdddddhhhhh000010`. -/
  | srl (rd rs rt shamt : BitVec 5)
  /-- R154, `000000ssssstttttdddddhhhhh000011`. -/
  | sra (rd rs rt shamt : BitVec 5)
  /-- R138, `000000ssssstttttdddddhhhhh001000`. -/
  | jr (rd rs rt shamt : BitVec 5)
  /-- R137, `000000ssssstttttdddddhhhhh001001`. -/
  | jalr (rd rs rt shamt : BitVec 5)
  /-- R139, `000000ssssstttttdddddhhhhh010000`. -/
  | mfhi (rd rs rt shamt : BitVec 5)
  /-- R140, `000000ssssstttttdddddhhhhh010001`. -/
  | mthi (rd rs rt shamt : BitVec 5)
  /-- R141, `000000ssssstttttdddddhhhhh010010`. -/
  | mflo (rd rs rt shamt : BitVec 5)
  /-- R142, `000000ssssstttttdddddhhhhh010011`. -/
  | mtlo (rd rs rt shamt : BitVec 5)
  /-- R143, `000000ssssstttttdddddhhhhh011000`. -/
  | mult (rd rs rt shamt : BitVec 5)
  /-- R144, `000000ssssstttttdddddhhhhh011001`. -/
  | multu (rd rs rt shamt : BitVec 5)
  /-- R135, `000000ssssstttttdddddhhhhh011010`. -/
  | div (rd rs rt shamt : BitVec 5)
  /-- R136, `000000ssssstttttdddddhhhhh011011`. -/
  | divu (rd rs rt shamt : BitVec 5)
  /-- R132, `000000ssssstttttdddddhhhhh100000`. -/
  | add (rd rs rt shamt : BitVec 5)
  /-- R133, `000000ssssstttttdddddhhhhh100001`. -/
  | addu (rd rs rt shamt : BitVec 5)
  /-- R150, `000000ssssstttttdddddhhhhh100010`. -/
  | sub (rd rs rt shamt : BitVec 5)
  /-- R151, `000000ssssstttttdddddhhhhh100011`. -/
  | subu (rd rs rt shamt : BitVec 5)
  /-- R134, `000000ssssstttttdddddhhhhh100100`. -/
  | and (rd rs rt shamt : BitVec 5)
  /-- R147, `000000ssssstttttdddddhhhhh100101`. -/
  | or (rd rs rt shamt : BitVec 5)
  /-- R146, `000000ssssstttttdddddhhhhh100110`. -/
  | xor (rd rs rt shamt : BitVec 5)
  /-- R145, `000000ssssstttttdddddhhhhh100111`. -/
  | nor (rd rs rt shamt : BitVec 5)
  /-- R148, `000000ssssstttttdddddhhhhh101010`. -/
  | slt (rd rs rt shamt : BitVec 5)
  /-- R149, `000000ssssstttttdddddhhhhh101011`. -/
  | sltu (rd rs rt shamt : BitVec 5)
  /-- R171, `000010iiiiiiiiiiiiiiiiiiiiiiiiii`. -/
  | j (target26 : BitVec 26)
  /-- R172, `000011iiiiiiiiiiiiiiiiiiiiiiiiii`. -/
  | jal (target26 : BitVec 26)
  /-- R187, `000100ssssstttttiiiiiiiiiiiiiiii`. -/
  | beq (rt rs : BitVec 5) (imm : BitVec 16)
  /-- R189, `000101ssssstttttiiiiiiiiiiiiiiii`. -/
  | bne (rt rs : BitVec 5) (imm : BitVec 16)
  /-- R188, `000110ssssstttttiiiiiiiiiiiiiiii`. -/
  | blez (rt rs : BitVec 5) (imm : BitVec 16)
  /-- R190, `000111ssssstttttiiiiiiiiiiiiiiii`. -/
  | bgtz (rt rs : BitVec 5) (imm : BitVec 16)
  /-- R183, `001000ssssstttttiiiiiiiiiiiiiiii`. -/
  | addi (rt rs : BitVec 5) (imm : BitVec 16)
  /-- R185, `001001ssssstttttiiiiiiiiiiiiiiii`. -/
  | addiu (rt rs : BitVec 5) (imm : BitVec 16)
  /-- R184, `001010ssssstttttiiiiiiiiiiiiiiii`. -/
  | slti (rt rs : BitVec 5) (imm : BitVec 16)
  /-- R199, `001011ssssstttttiiiiiiiiiiiiiiii`. -/
  | sltiu (rt rs : BitVec 5) (imm : BitVec 16)
  /-- R186, `001100ssssstttttiiiiiiiiiiiiiiii`. -/
  | andi (rt rs : BitVec 5) (imm : BitVec 16)
  /-- R196, `001101ssssstttttiiiiiiiiiiiiiiii`. -/
  | ori (rt rs : BitVec 5) (imm : BitVec 16)
  /-- R194, `001111ssssstttttiiiiiiiiiiiiiiii`. -/
  | lui (rt rs : BitVec 5) (imm : BitVec 16)
  /-- R191, `100000ssssstttttiiiiiiiiiiiiiiii`. -/
  | lb (rt rs : BitVec 5) (imm : BitVec 16)
  /-- R195, `100011ssssstttttiiiiiiiiiiiiiiii`. -/
  | lw (rt rs : BitVec 5) (imm : BitVec 16)
  /-- R192, `100100ssssstttttiiiiiiiiiiiiiiii`. -/
  | lbu (rt rs : BitVec 5) (imm : BitVec 16)
  /-- R193, `100101ssssstttttiiiiiiiiiiiiiiii`. -/
  | lhu (rt rs : BitVec 5) (imm : BitVec 16)
  /-- R197, `101000ssssstttttiiiiiiiiiiiiiiii`. -/
  | sb (rt rs : BitVec 5) (imm : BitVec 16)
  /-- R198, `101001ssssstttttiiiiiiiiiiiiiiii`. -/
  | sh (rt rs : BitVec 5) (imm : BitVec 16)
  /-- R200, `101011ssssstttttiiiiiiiiiiiiiiii`. -/
  | sw (rt rs : BitVec 5) (imm : BitVec 16)
  deriving DecidableEq, Repr

/-- The 43 mnemonics, in the order of their ids (40_dispatch.md R102). -/
inductive Mnemonic where
  | sll | srl | sra | jr | jalr | mfhi | mthi | mflo | mtlo | mult | multu
  | div | divu | add | addu | sub | subu | and | or | xor | nor | slt
  | sltu | j | jal | beq | bne | blez | bgtz | addi | addiu | slti | sltiu
  | andi | ori | lui | lb | lw | lbu | lhu | sb | sh | sw
  deriving DecidableEq, Repr

/-- The decoded record: one constructor per output template (40_dispatch.md R101). -/
inductive Decoded where
  | r3      (m : Mnemonic) (d s t : BitVec 5)
  | shift   (m : Mnemonic) (a b : BitVec 5) (sa : BitVec 5)
  | jump    (m : Mnemonic) (target : BitVec 32)
  | immS    (m : Mnemonic) (t s : BitVec 5) (imm : BitVec 16)
  | immX    (m : Mnemonic) (t s : BitVec 5) (imm : BitVec 16)
  | invalid (word : BitVec 32)
  deriving DecidableEq, Repr

/-- The format chosen by `op` alone (30_encoding.md R63). -/
inductive Format where
  | R | J | I
  deriving DecidableEq, Repr

/-- The six shapes, as the signal view numbers them (40_dispatch.md R101, R111). -/
inductive Shape where
  | r3 | shift | jump | immS | immX | invalid
  deriving DecidableEq, Repr

/-- The block's output signals (40_dispatch.md R111). -/
structure Signals where
  fmt   : BitVec 2
  valid : BitVec 1
  shape : BitVec 3
  mnem  : BitVec 6
  slotA : BitVec 5
  slotB : BitVec 5
  slotC : BitVec 5
  num   : BitVec 32
  word  : BitVec 32
  deriving DecidableEq, Repr

/-- One decode's inputs as the caller presents them: the word and its address (10_state.md R26, R27;
70_reset_and_hazards.md R248). -/
structure Input where
  w  : Word
  pc : Word
  deriving DecidableEq, Repr

end Sys2Proof
end

