-- ==== Sys2Proof/WellFormed.lean ====
section
/-! DEFINITION. What is well formed. An `Instr` needs no check: its fields carry their exact widths, and every value of
every field is legal (30_encoding.md R67, R69, R70, R73), so an ill-formed one cannot be written. The checks are on the
decoded record (40_dispatch.md R101) and on a table of register names (10_state.md R21; 40_dispatch.md R112). -/

namespace Sys2Proof

/-- The three-register mnemonics (41_register_format.md R131). -/
def threeRegisterMnemonics : List Mnemonic :=
  [.jr, .jalr, .mfhi, .mthi, .mflo, .mtlo, .mult, .multu, .div, .divu, .add,
   .addu, .sub, .subu, .and, .or, .xor, .nor, .slt, .sltu]

/-- The hex-immediate mnemonics (43_immediate_format.md R182). -/
def hexImmediateMnemonics : List Mnemonic :=
  [.beq, .bne, .blez, .bgtz, .addiu, .sltiu, .andi, .ori, .lui, .lb, .lw, .lbu, .lhu, .sb, .sh, .sw]

/-- The 41 function codes that are invalid under opcode 0 (30_encoding.md R74). -/
def invalidFunctionCodes : List (BitVec 6) :=
  [0x01, 0x04, 0x05, 0x06, 0x07, 0x0A, 0x0B, 0x0C, 0x0D, 0x0E, 0x0F, 0x14, 0x15, 0x16, 0x17,
   0x1C, 0x1D, 0x1E, 0x1F, 0x28, 0x29, 0x2C, 0x2D, 0x2E, 0x2F, 0x30, 0x31, 0x32, 0x33, 0x34, 0x35,
   0x36, 0x37, 0x38, 0x39, 0x3A, 0x3B, 0x3C, 0x3D, 0x3E, 0x3F]

/-- The 43 invalid opcodes (30_encoding.md R74; 0x0E by 90_conflicts.md C1). -/
def invalidOpcodes : List (BitVec 6) :=
  [0x01, 0x0E, 0x10, 0x11, 0x12, 0x13, 0x14, 0x15, 0x16, 0x17, 0x18, 0x19, 0x1A, 0x1B, 0x1C, 0x1D,
   0x1E, 0x1F, 0x21, 0x22, 0x26, 0x27, 0x2A, 0x2C, 0x2D, 0x2E, 0x2F, 0x30, 0x31, 0x32, 0x33, 0x34,
   0x35, 0x36, 0x37, 0x38, 0x39, 0x3A, 0x3B, 0x3C, 0x3D, 0x3E, 0x3F]

/-- The word lies in the invalid space (30_encoding.md R74). -/
def invalidWord (w : Word) : Bool :=
  (w.extractLsb' 26 6 == 0 && invalidFunctionCodes.contains (w.extractLsb' 0 6))
    || invalidOpcodes.contains (w.extractLsb' 26 6)

/-- The combinations a decode may build (40_dispatch.md R101): a mnemonic only under its own shape, `sra` only with one
register twice (41_register_format.md R154), a jump target only on a word boundary (20_memory.md R44), an invalid
record only of an invalid word. -/
def Decoded.wellFormed : Decoded → Bool
  | .r3 m _ _ _     => threeRegisterMnemonics.contains m
  | .shift m a b _  => m == .sll || m == .srl || (m == .sra && a == b)
  | .jump m target  => (m == .j || m == .jal) && target.extractLsb' 0 2 == 0
  | .immS m _ _ _   => m == .addi || m == .slti
  | .immX m _ _ _   => hexImmediateMnemonics.contains m
  | .invalid word   => invalidWord word

/-- The five entries the source fixes (10_state.md R21), the constraint on `REG_NAMES` (92_eei_decisions.md D6): 0 `zero`,
3 `v1`, 4 `a0`, 5 `a1`, 31 `ra`. -/
def romHoldsFixedNames (names : RegNames) : Bool :=
  names[0] == ['z', 'e', 'r', 'o'] && names[3] == ['v', '1'] && names[4] == ['a', '0']
    && names[5] == ['a', '1'] && names[31] == ['r', 'a']

/-- No name holds a comma, a space or a newline, and no two entries are equal: the premise under which lines tell
records apart (40_dispatch.md R112). -/
def romNamesDistinctAndPlain (names : RegNames) : Bool :=
  names.toList.all (fun n => n.all fun c => c != ',' && c != ' ' && c != '\n') && decide names.toList.Nodup

end Sys2Proof
end

