-- ==== Sys2Proof/Decode.lean ====
section
/-! DEFINITION. The slicer, the opcode maps and the decoder from a word to an instruction, total and rejecting by name;
after it the encoder, written from the same encoding tables (30_encoding.md). -/

namespace Sys2Proof

/-- The slicer's eight fields (30_encoding.md R61). -/
structure Fields where
  op       : BitVec 6
  rs       : BitVec 5
  rt       : BitVec 5
  rd       : BitVec 5
  shamt    : BitVec 5
  funct    : BitVec 6
  imm      : BitVec 16
  target26 : BitVec 26
  deriving DecidableEq, Repr

/-- The bit-field slicer (30_encoding.md R61): all eight fields of every word, none extended. Bits are numbered on the
word's value (00_scope.md R6, 20_memory.md R43). -/
def slice (w : Word) : Fields where
  op       := w.extractLsb' 26 6
  rs       := w.extractLsb' 21 5
  rt       := w.extractLsb' 16 5
  rd       := w.extractLsb' 11 5
  shamt    := w.extractLsb' 6 5
  funct    := w.extractLsb' 0 6
  imm      := w.extractLsb' 0 16
  target26 := w.extractLsb' 0 26

/-- The format, chosen by `op` alone (30_encoding.md R63). -/
def formatOf (op : BitVec 6) : Format :=
  if op = 0x00 then .R
  else if op = 0x02 ∨ op = 0x03 then .J
  else .I

/-- Why a word is no instruction: the two places where `INVALID_ENCODING` arises (60_exceptions.md R220). -/
inductive DecodeReject where
  /-- Opcode 0 with an unrecognized function code (41_register_format.md R155). -/
  | unrecognizedFunctionCode
  /-- An opcode that is not 0, 2 or 3 and not recognized (43_immediate_format.md R201). -/
  | unrecognizedOpcode
  deriving DecidableEq, Repr

/-- Register format: exact match on `funct` (30_encoding.md R72, R73; 41_register_format.md R130). -/
def decodeR (f : Fields) : Except DecodeReject Instr :=
  match f.funct.toNat with
  | 0x00 => .ok (.sll f.rd f.rs f.rt f.shamt)
  | 0x02 => .ok (.srl f.rd f.rs f.rt f.shamt)
  | 0x03 => .ok (.sra f.rd f.rs f.rt f.shamt)
  | 0x08 => .ok (.jr f.rd f.rs f.rt f.shamt)
  | 0x09 => .ok (.jalr f.rd f.rs f.rt f.shamt)
  | 0x10 => .ok (.mfhi f.rd f.rs f.rt f.shamt)
  | 0x11 => .ok (.mthi f.rd f.rs f.rt f.shamt)
  | 0x12 => .ok (.mflo f.rd f.rs f.rt f.shamt)
  | 0x13 => .ok (.mtlo f.rd f.rs f.rt f.shamt)
  | 0x18 => .ok (.mult f.rd f.rs f.rt f.shamt)
  | 0x19 => .ok (.multu f.rd f.rs f.rt f.shamt)
  | 0x1A => .ok (.div f.rd f.rs f.rt f.shamt)
  | 0x1B => .ok (.divu f.rd f.rs f.rt f.shamt)
  | 0x20 => .ok (.add f.rd f.rs f.rt f.shamt)
  | 0x21 => .ok (.addu f.rd f.rs f.rt f.shamt)
  | 0x22 => .ok (.sub f.rd f.rs f.rt f.shamt)
  | 0x23 => .ok (.subu f.rd f.rs f.rt f.shamt)
  | 0x24 => .ok (.and f.rd f.rs f.rt f.shamt)
  | 0x25 => .ok (.or f.rd f.rs f.rt f.shamt)
  | 0x26 => .ok (.xor f.rd f.rs f.rt f.shamt)
  | 0x27 => .ok (.nor f.rd f.rs f.rt f.shamt)
  | 0x2A => .ok (.slt f.rd f.rs f.rt f.shamt)
  | 0x2B => .ok (.sltu f.rd f.rs f.rt f.shamt)
  | _ => .error .unrecognizedFunctionCode

/-- Jump format: the two opcodes routed here are both valid (42_jump_format.md R170, R173). -/
def decodeJ (f : Fields) : Except DecodeReject Instr :=
  if f.op = 0x02 then .ok (.j f.target26) else .ok (.jal f.target26)

/-- Immediate format: exact match on `op` (30_encoding.md R71, R73; 43_immediate_format.md R180). -/
def decodeI (f : Fields) : Except DecodeReject Instr :=
  match f.op.toNat with
  | 0x04 => .ok (.beq f.rt f.rs f.imm)
  | 0x05 => .ok (.bne f.rt f.rs f.imm)
  | 0x06 => .ok (.blez f.rt f.rs f.imm)
  | 0x07 => .ok (.bgtz f.rt f.rs f.imm)
  | 0x08 => .ok (.addi f.rt f.rs f.imm)
  | 0x09 => .ok (.addiu f.rt f.rs f.imm)
  | 0x0A => .ok (.slti f.rt f.rs f.imm)
  | 0x0B => .ok (.sltiu f.rt f.rs f.imm)
  | 0x0C => .ok (.andi f.rt f.rs f.imm)
  | 0x0D => .ok (.ori f.rt f.rs f.imm)
  | 0x0F => .ok (.lui f.rt f.rs f.imm)
  | 0x20 => .ok (.lb f.rt f.rs f.imm)
  | 0x23 => .ok (.lw f.rt f.rs f.imm)
  | 0x24 => .ok (.lbu f.rt f.rs f.imm)
  | 0x25 => .ok (.lhu f.rt f.rs f.imm)
  | 0x28 => .ok (.sb f.rt f.rs f.imm)
  | 0x29 => .ok (.sh f.rt f.rs f.imm)
  | 0x2B => .ok (.sw f.rt f.rs f.imm)
  | _ => .error .unrecognizedOpcode

/-- The instruction a word stands for, or why it stands for none (30_encoding.md R63, R71, R72, R74; 60_exceptions.md
R222). -/
def decode (w : Word) : Except DecodeReject Instr :=
  let f := slice w
  match formatOf f.op with
  | .R => decodeR f
  | .J => decodeJ f
  | .I => decodeI f

/-- The word of an instruction whose bits are `w`, numbered as the opcode table numbers them: the low `nbits` bits of
`w`, every higher bit 0. The block takes the word as a value, so no byte order enters (20_memory.md R42, R43). -/
def tableWord (nbits w : Nat) : Word := BitVec.ofNat 32 (w % 2 ^ nbits)

/-- The instruction the decoder reads from the table's bits. -/
def decodeTableWord (nbits w : Nat) : Option Instr := (decode (tableWord nbits w)).toOption

/-- The register-format layout (30_encoding.md R64): `op` = 0, then rs, rt, rd, shamt, funct. -/
def encodeR (rs rt rd shamt : BitVec 5) (funct : BitVec 6) : Word :=
  (0 : BitVec 6) ++ rs ++ rt ++ rd ++ shamt ++ funct

/-- The jump-format layout (30_encoding.md R66): op, then target26. -/
def encodeJ (op : BitVec 6) (target26 : BitVec 26) : Word := op ++ target26

/-- The immediate-format layout (30_encoding.md R65): op, rs, rt, imm. -/
def encodeI (op : BitVec 6) (rs rt : BitVec 5) (imm : BitVec 16) : Word := op ++ rs ++ rt ++ imm

/-- The word of an instruction (30_encoding.md R64 to R66, R71, R72). -/
def encode : Instr → Word
  | .sll rd rs rt shamt => encodeR rs rt rd shamt 0x00
  | .srl rd rs rt shamt => encodeR rs rt rd shamt 0x02
  | .sra rd rs rt shamt => encodeR rs rt rd shamt 0x03
  | .jr rd rs rt shamt => encodeR rs rt rd shamt 0x08
  | .jalr rd rs rt shamt => encodeR rs rt rd shamt 0x09
  | .mfhi rd rs rt shamt => encodeR rs rt rd shamt 0x10
  | .mthi rd rs rt shamt => encodeR rs rt rd shamt 0x11
  | .mflo rd rs rt shamt => encodeR rs rt rd shamt 0x12
  | .mtlo rd rs rt shamt => encodeR rs rt rd shamt 0x13
  | .mult rd rs rt shamt => encodeR rs rt rd shamt 0x18
  | .multu rd rs rt shamt => encodeR rs rt rd shamt 0x19
  | .div rd rs rt shamt => encodeR rs rt rd shamt 0x1A
  | .divu rd rs rt shamt => encodeR rs rt rd shamt 0x1B
  | .add rd rs rt shamt => encodeR rs rt rd shamt 0x20
  | .addu rd rs rt shamt => encodeR rs rt rd shamt 0x21
  | .sub rd rs rt shamt => encodeR rs rt rd shamt 0x22
  | .subu rd rs rt shamt => encodeR rs rt rd shamt 0x23
  | .and rd rs rt shamt => encodeR rs rt rd shamt 0x24
  | .or rd rs rt shamt => encodeR rs rt rd shamt 0x25
  | .xor rd rs rt shamt => encodeR rs rt rd shamt 0x26
  | .nor rd rs rt shamt => encodeR rs rt rd shamt 0x27
  | .slt rd rs rt shamt => encodeR rs rt rd shamt 0x2A
  | .sltu rd rs rt shamt => encodeR rs rt rd shamt 0x2B
  | .j target26 => encodeJ 0x02 target26
  | .jal target26 => encodeJ 0x03 target26
  | .beq rt rs imm => encodeI 0x04 rs rt imm
  | .bne rt rs imm => encodeI 0x05 rs rt imm
  | .blez rt rs imm => encodeI 0x06 rs rt imm
  | .bgtz rt rs imm => encodeI 0x07 rs rt imm
  | .addi rt rs imm => encodeI 0x08 rs rt imm
  | .addiu rt rs imm => encodeI 0x09 rs rt imm
  | .slti rt rs imm => encodeI 0x0A rs rt imm
  | .sltiu rt rs imm => encodeI 0x0B rs rt imm
  | .andi rt rs imm => encodeI 0x0C rs rt imm
  | .ori rt rs imm => encodeI 0x0D rs rt imm
  | .lui rt rs imm => encodeI 0x0F rs rt imm
  | .lb rt rs imm => encodeI 0x20 rs rt imm
  | .lw rt rs imm => encodeI 0x23 rs rt imm
  | .lbu rt rs imm => encodeI 0x24 rs rt imm
  | .lhu rt rs imm => encodeI 0x25 rs rt imm
  | .sb rt rs imm => encodeI 0x28 rs rt imm
  | .sh rt rs imm => encodeI 0x29 rs rt imm
  | .sw rt rs imm => encodeI 0x2B rs rt imm

/-- The mnemonic of an instruction (40_dispatch.md R102). -/
def Instr.mnemonic : Instr → Mnemonic
  | .sll _ _ _ _ => .sll
  | .srl _ _ _ _ => .srl
  | .sra _ _ _ _ => .sra
  | .jr _ _ _ _ => .jr
  | .jalr _ _ _ _ => .jalr
  | .mfhi _ _ _ _ => .mfhi
  | .mthi _ _ _ _ => .mthi
  | .mflo _ _ _ _ => .mflo
  | .mtlo _ _ _ _ => .mtlo
  | .mult _ _ _ _ => .mult
  | .multu _ _ _ _ => .multu
  | .div _ _ _ _ => .div
  | .divu _ _ _ _ => .divu
  | .add _ _ _ _ => .add
  | .addu _ _ _ _ => .addu
  | .sub _ _ _ _ => .sub
  | .subu _ _ _ _ => .subu
  | .and _ _ _ _ => .and
  | .or _ _ _ _ => .or
  | .xor _ _ _ _ => .xor
  | .nor _ _ _ _ => .nor
  | .slt _ _ _ _ => .slt
  | .sltu _ _ _ _ => .sltu
  | .j _ => .j
  | .jal _ => .jal
  | .beq _ _ _ => .beq
  | .bne _ _ _ => .bne
  | .blez _ _ _ => .blez
  | .bgtz _ _ _ => .bgtz
  | .addi _ _ _ => .addi
  | .addiu _ _ _ => .addiu
  | .slti _ _ _ => .slti
  | .sltiu _ _ _ => .sltiu
  | .andi _ _ _ => .andi
  | .ori _ _ _ => .ori
  | .lui _ _ _ => .lui
  | .lb _ _ _ => .lb
  | .lw _ _ _ => .lw
  | .lbu _ _ _ => .lbu
  | .lhu _ _ _ => .lhu
  | .sb _ _ _ => .sb
  | .sh _ _ _ => .sh
  | .sw _ _ _ => .sw

end Sys2Proof
end

