-- ==== Sys2Proof/Machine/Rom.lean ====
section
/-! DEFINITION. The register-name ROM: its 32 entries, its read, the installing of `REG_NAMES` and the default of it. -/

namespace Sys2Proof.Machine

/-- The 32 entries of the ROM (10_state.md R20). Entries 0, 3, 4, 5 and 31 are fixed by the source whatever `REG_NAMES` is
(R21); the 27 others are those of `REG_NAMES` (R22). -/
def romNames (rom : Rom) : RegNames :=
  #v[['z', 'e', 'r', 'o'], rom.entry1, rom.entry2, ['v', '1'], ['a', '0'], ['a', '1'],
     rom.entries6to30[0], rom.entries6to30[1], rom.entries6to30[2], rom.entries6to30[3], rom.entries6to30[4],
     rom.entries6to30[5], rom.entries6to30[6], rom.entries6to30[7], rom.entries6to30[8], rom.entries6to30[9],
     rom.entries6to30[10], rom.entries6to30[11], rom.entries6to30[12], rom.entries6to30[13], rom.entries6to30[14],
     rom.entries6to30[15], rom.entries6to30[16], rom.entries6to30[17], rom.entries6to30[18], rom.entries6to30[19],
     rom.entries6to30[20], rom.entries6to30[21], rom.entries6to30[22], rom.entries6to30[23], rom.entries6to30[24],
     ['r', 'a']]

/-- `ROM[i]`: total over the 5-bit index, without side effect (10_state.md R23). -/
def romRead (rom : Rom) (i : RegIdx) : Text := (romNames rom).get i.toFin

/-- The ROM of a block that is given `names` as `REG_NAMES`: its 27 open entries are taken, and what it says at the five fixed
ones is not (10_state.md R21, R22; 92_eei_decisions.md D6; log entry 13). -/
def installNames (names : RegNames) : Rom where
  entry1       := names[1]
  entry2       := names[2]
  entries6to30 :=
    #v[
      names[6], names[7], names[8], names[9], names[10], names[11], names[12], names[13], names[14],
      names[15], names[16], names[17], names[18], names[19], names[20], names[21], names[22], names[23],
      names[24], names[25], names[26], names[27], names[28], names[29], names[30]]

/-- The default of `REG_NAMES` (10_state.md R22). PRESUMED outside entries 0, 3, 4, 5 and 31: the spec itself marks the
other 27 as general knowledge (92_eei_decisions.md D6; log entry 1). -/
def defaultRegNames : RegNames :=
  #v[['z', 'e', 'r', 'o'], ['a', 't'], ['v', '0'], ['v', '1'], ['a', '0'], ['a', '1'], ['a', '2'], ['a', '3'],
     ['t', '0'], ['t', '1'], ['t', '2'], ['t', '3'], ['t', '4'], ['t', '5'], ['t', '6'], ['t', '7'],
     ['s', '0'], ['s', '1'], ['s', '2'], ['s', '3'], ['s', '4'], ['s', '5'], ['s', '6'], ['s', '7'],
     ['t', '8'], ['t', '9'], ['k', '0'], ['k', '1'], ['g', 'p'], ['s', 'p'], ['f', 'p'], ['r', 'a']]

end Sys2Proof.Machine
end

