-- ==== Sys2Proof/Machine/Operands.lean ====
section
/-! DEFINITION. Operand forms and how each is shown: the signed reading of an immediate, the jump target, the number
renderers, the register renderer, and the names of the mnemonics (30_encoding.md R67 to R70; 40_dispatch.md R102, R104 to
R107). -/

namespace Sys2Proof.Machine

/-- `s16(v)`, the two's-complement reading of a 16-bit field (00_scope.md R7). -/
def s16 (v : BitVec 16) : Int := if v.getLsbD 15 then (v.toNat : Int) - 65536 else v.toNat

/-- The pseudo-direct jump target (30_encoding.md R68; 42_jump_format.md R170). -/
def jumpTarget (target26 : BitVec 26) (pc : Word) : Word :=
  ((target26.setWidth 32) <<< 2) ||| (pc &&& 0xF0000000#32)

/-- The lowercase digit of a number below 16 (40_dispatch.md R104). -/
def digitChar : Nat → Char
  | 0 => '0' | 1 => '1' | 2 => '2' | 3 => '3' | 4 => '4' | 5 => '5' | 6 => '6' | 7 => '7'
  | 8 => '8' | 9 => '9' | 10 => 'a' | 11 => 'b' | 12 => 'c' | 13 => 'd' | 14 => 'e' | _ => 'f'

/-- The spelling of `n` in `base` without leading zeros, `"0"` for zero. The first argument bounds the number of digits. -/
def digits (base : Nat) : Nat → Nat → Text
  | 0, _ => []
  | fuel + 1, n =>
    if n < base then [digitChar n] else digits base fuel (n / base) ++ [digitChar (n % base)]

/-- `HexStr(v)` (40_dispatch.md R104): an `n`-bit value has at most `n + 1` digits. -/
def hexStr {n : Nat} (v : BitVec n) : Text := digits 16 (n + 1) v.toNat

/-- `DecStr(v)` (40_dispatch.md R105). -/
def decStr {n : Nat} (v : BitVec n) : Text := digits 10 (n + 1) v.toNat

/-- `SDecStr(imm)` (40_dispatch.md R106). The magnitude of a negative reading is the two's complement of the field, at most
32768, so it is a 16-bit value again. -/
def sDecStr (imm : BitVec 16) : Text := if s16 imm < 0 then '-' :: decStr (-imm) else decStr imm

/-- `RegStr(i)` (40_dispatch.md R107; 10_state.md R24). -/
def regStr (rom : Rom) (i : RegIdx) : Text := '$' :: romRead rom i

end Sys2Proof.Machine

namespace Sys2Proof

/-- The printed name of a mnemonic (40_dispatch.md R102). -/
def Mnemonic.name : Mnemonic → Text
  | .sll => ['s', 'l', 'l']
  | .srl => ['s', 'r', 'l']
  | .sra => ['s', 'r', 'a']
  | .jr => ['j', 'r']
  | .jalr => ['j', 'a', 'l', 'r']
  | .mfhi => ['m', 'f', 'h', 'i']
  | .mthi => ['m', 't', 'h', 'i']
  | .mflo => ['m', 'f', 'l', 'o']
  | .mtlo => ['m', 't', 'l', 'o']
  | .mult => ['m', 'u', 'l', 't']
  | .multu => ['m', 'u', 'l', 't', 'u']
  | .div => ['d', 'i', 'v']
  | .divu => ['d', 'i', 'v', 'u']
  | .add => ['a', 'd', 'd']
  | .addu => ['a', 'd', 'd', 'u']
  | .sub => ['s', 'u', 'b']
  | .subu => ['s', 'u', 'b', 'u']
  | .and => ['a', 'n', 'd']
  | .or => ['o', 'r']
  | .xor => ['x', 'o', 'r']
  | .nor => ['n', 'o', 'r']
  | .slt => ['s', 'l', 't']
  | .sltu => ['s', 'l', 't', 'u']
  | .j => ['j']
  | .jal => ['j', 'a', 'l']
  | .beq => ['b', 'e', 'q']
  | .bne => ['b', 'n', 'e']
  | .blez => ['b', 'l', 'e', 'z']
  | .bgtz => ['b', 'g', 't', 'z']
  | .addi => ['a', 'd', 'd', 'i']
  | .addiu => ['a', 'd', 'd', 'i', 'u']
  | .slti => ['s', 'l', 't', 'i']
  | .sltiu => ['s', 'l', 't', 'i', 'u']
  | .andi => ['a', 'n', 'd', 'i']
  | .ori => ['o', 'r', 'i']
  | .lui => ['l', 'u', 'i']
  | .lb => ['l', 'b']
  | .lw => ['l', 'w']
  | .lbu => ['l', 'b', 'u']
  | .lhu => ['l', 'h', 'u']
  | .sb => ['s', 'b']
  | .sh => ['s', 'h']
  | .sw => ['s', 'w']

/-- The id of a mnemonic (40_dispatch.md R102). -/
def Mnemonic.id : Mnemonic → BitVec 6
  | .sll => 0 | .srl => 1 | .sra => 2 | .jr => 3 | .jalr => 4 | .mfhi => 5
  | .mthi => 6 | .mflo => 7 | .mtlo => 8 | .mult => 9 | .multu => 10 | .div => 11
  | .divu => 12 | .add => 13 | .addu => 14 | .sub => 15 | .subu => 16 | .and => 17
  | .or => 18 | .xor => 19 | .nor => 20 | .slt => 21 | .sltu => 22 | .j => 23
  | .jal => 24 | .beq => 25 | .bne => 26 | .blez => 27 | .bgtz => 28 | .addi => 29
  | .addiu => 30 | .slti => 31 | .sltiu => 32 | .andi => 33 | .ori => 34 | .lui => 35
  | .lb => 36 | .lw => 37 | .lbu => 38 | .lhu => 39 | .sb => 40 | .sh => 41
  | .sw => 42

end Sys2Proof
end

