-- ==== Sys2Proof/Machine/Flags.lean ====
section
/-! DEFINITION. The block has no status flags (10_state.md R30). What it has in their place is the signal view of its
output: the classifying bits `fmt`, `valid`, `shape`, `mnem` and the operand wires (40_dispatch.md R111). -/

namespace Sys2Proof

/-- The shape of a record (40_dispatch.md R101). -/
def Decoded.shapeOf : Decoded → Shape
  | .r3 _ _ _ _ => .r3
  | .shift _ _ _ _ => .shift
  | .jump _ _ => .jump
  | .immS _ _ _ _ => .immS
  | .immX _ _ _ _ => .immX
  | .invalid _ => .invalid

end Sys2Proof

namespace Sys2Proof.Machine

/-- `fmt`: 0 = R, 1 = J, 2 = I (R111). -/
def fmtSignal : Format → BitVec 2
  | .R => 0
  | .J => 1
  | .I => 2

/-- `shape`: 0 to 5 (R111). -/
def shapeSignal : Shape → BitVec 3
  | .r3 => 0
  | .shift => 1
  | .jump => 2
  | .immS => 3
  | .immX => 4
  | .invalid => 5

/-- `valid`: 0 for `Invalid`, 1 for every other shape (R111). -/
def validSignal : Decoded → BitVec 1
  | .invalid _ => 0
  | _ => 1

/-- `mnem`: the id of the mnemonic, 63 when not valid (R111). -/
def mnemSignal : Decoded → BitVec 6
  | .r3 m _ _ _ => m.id
  | .shift m _ _ _ => m.id
  | .jump m _ => m.id
  | .immS m _ _ _ => m.id
  | .immX m _ _ _ => m.id
  | .invalid _ => 63

/-- `slot_a` (R111): the record's first register; `rd` of the word where the shape has none. -/
def slotASignal (d : Decoded) (w : Word) : BitVec 5 :=
  match d with
  | .r3 _ rd _ _ => rd
  | .shift _ a _ _ => a
  | .immS _ t _ _ => t
  | .immX _ t _ _ => t
  | .jump _ _ => (slice w).rd
  | .invalid _ => (slice w).rd

/-- `slot_b` (R111): the record's second register; `rs` of the word where the shape has none. -/
def slotBSignal (d : Decoded) (w : Word) : BitVec 5 :=
  match d with
  | .r3 _ _ rs _ => rs
  | .shift _ _ b _ => b
  | .immS _ _ s _ => s
  | .immX _ _ s _ => s
  | .jump _ _ => (slice w).rs
  | .invalid _ => (slice w).rs

/-- `slot_c` (R111): the record's third register; `rt` of the word where the shape has none. -/
def slotCSignal (d : Decoded) (w : Word) : BitVec 5 :=
  match d with
  | .r3 _ _ _ rt => rt
  | .shift _ _ _ _ => (slice w).rt
  | .immS _ _ _ _ => (slice w).rt
  | .immX _ _ _ _ => (slice w).rt
  | .jump _ _ => (slice w).rt
  | .invalid _ => (slice w).rt

/-- `num` (R111): the shape's number, zero-extended to 32 bits. -/
def numSignal (d : Decoded) (w : Word) : BitVec 32 :=
  match d with
  | .r3 _ _ _ _ => (slice w).shamt.setWidth 32
  | .shift _ _ _ sa => sa.setWidth 32
  | .jump _ target => target
  | .immS _ _ _ imm => imm.setWidth 32
  | .immX _ _ _ imm => imm.setWidth 32
  | .invalid word => word

/-- The signals the block drives for a record `d` of the word `w` (R111). -/
def signalsOf (d : Decoded) (w : Word) : Signals where
  fmt   := fmtSignal (formatOf (slice w).op)
  valid := validSignal d
  shape := shapeSignal d.shapeOf
  mnem  := mnemSignal d
  slotA := slotASignal d w
  slotB := slotBSignal d w
  slotC := slotCSignal d w
  num   := numSignal d w
  word  := w

end Sys2Proof.Machine
end

