-- ==== Sys2Proof/Machine/FormatMux.lean ====
section
/-! DEFINITION. The format mux: from a decoded record to its line of text (40_dispatch.md R108). -/

namespace Sys2Proof.Machine

/-- `", "` between operands (30_encoding.md R77). -/
def separator : Text := [',', ' ']

/-- `"invalid instruction 0x"` (40_dispatch.md R108). -/
def invalidPrefix : Text :=
  ['i', 'n', 'v', 'a', 'l', 'i', 'd', ' ', 'i', 'n', 's', 't', 'r', 'u', 'c', 't', 'i', 'o', 'n', ' ', '0', 'x']

/-- The common form of the four templates with three operands (30_encoding.md R77): the name, one space, the operands with
`", "` between them, one newline. -/
def threeOperandLine (name x y z : Text) : Text :=
  name ++ [' '] ++ x ++ separator ++ y ++ separator ++ z ++ ['\n']

/-- `Render(d)` (40_dispatch.md R108), for the block whose ROM is `rom`. -/
def render (rom : Rom) : Decoded → Text
  | .r3 m d s t      => threeOperandLine m.name (regStr rom d) (regStr rom s) (regStr rom t)
  | .shift m a b sa  => threeOperandLine m.name (regStr rom a) (regStr rom b) (decStr sa)
  | .jump m target   => m.name ++ [' ', '0', 'x'] ++ hexStr target ++ ['\n']
  | .immS m t s imm  => threeOperandLine m.name (regStr rom t) (regStr rom s) (sDecStr imm)
  | .immX m t s imm  => threeOperandLine m.name (regStr rom t) (regStr rom s) (['0', 'x'] ++ hexStr imm)
  | .invalid word    => invalidPrefix ++ hexStr word ++ ['\n']

end Sys2Proof.Machine
end

