-- ==== Sys2Proof/Machine/Record.lean ====
section
/-! DEFINITION. `Decode(w, pc)` as the spec writes it, straight from the word to the record (40_dispatch.md R100, R103;
41_register_format.md R130; 42_jump_format.md R170; 43_immediate_format.md R180). The machine itself goes from the word to an
`Instr` (Decode.lean) and from there to the record (the meanings); that both ways agree is a statement. Here bits are
taken by shift and mask, there by the slicer. -/

namespace Sys2Proof.Machine

/-- `w[hi:lo]` as a number, `width` bits from `lo` up (00_scope.md R6). -/
def bitsAt (w : Word) (lo width : Nat) : Nat := w.toNat / 2 ^ lo % 2 ^ width

/-- `DecodeR(w)` (41_register_format.md R130). -/
def recordR (w : Word) : Decoded :=
  let rs := BitVec.ofNat 5 (bitsAt w 21 5)
  let rt := BitVec.ofNat 5 (bitsAt w 16 5)
  let rd := BitVec.ofNat 5 (bitsAt w 11 5)
  let shamt := BitVec.ofNat 5 (bitsAt w 6 5)
  match bitsAt w 0 6 with
  | 0x00 => .shift .sll rd rs shamt
  | 0x02 => .shift .srl rd rs shamt
  | 0x03 => .shift .sra rd rd shamt
  | 0x08 => .r3 .jr rd rs rt
  | 0x09 => .r3 .jalr rd rs rt
  | 0x10 => .r3 .mfhi rd rs rt
  | 0x11 => .r3 .mthi rd rs rt
  | 0x12 => .r3 .mflo rd rs rt
  | 0x13 => .r3 .mtlo rd rs rt
  | 0x18 => .r3 .mult rd rs rt
  | 0x19 => .r3 .multu rd rs rt
  | 0x1A => .r3 .div rd rs rt
  | 0x1B => .r3 .divu rd rs rt
  | 0x20 => .r3 .add rd rs rt
  | 0x21 => .r3 .addu rd rs rt
  | 0x22 => .r3 .sub rd rs rt
  | 0x23 => .r3 .subu rd rs rt
  | 0x24 => .r3 .and rd rs rt
  | 0x25 => .r3 .or rd rs rt
  | 0x26 => .r3 .xor rd rs rt
  | 0x27 => .r3 .nor rd rs rt
  | 0x2A => .r3 .slt rd rs rt
  | 0x2B => .r3 .sltu rd rs rt
  | _ => .invalid w

/-- `DecodeJ(op, w, pc)` (42_jump_format.md R170). -/
def recordJ (op : Nat) (w pc : Word) : Decoded :=
  let target := ((w &&& 0x3FFFFFF#32) <<< 2) ||| (pc &&& 0xF0000000#32)
  if op = 0x02 then .jump .j target else .jump .jal target

/-- `DecodeI(op, w)` (43_immediate_format.md R180). -/
def recordI (op : Nat) (w : Word) : Decoded :=
  let rs := BitVec.ofNat 5 (bitsAt w 21 5)
  let rt := BitVec.ofNat 5 (bitsAt w 16 5)
  let imm := BitVec.ofNat 16 (bitsAt w 0 16)
  match op with
  | 0x04 => .immX .beq rt rs imm
  | 0x05 => .immX .bne rt rs imm
  | 0x06 => .immX .blez rt rs imm
  | 0x07 => .immX .bgtz rt rs imm
  | 0x08 => .immS .addi rt rs imm
  | 0x09 => .immX .addiu rt rs imm
  | 0x0A => .immS .slti rt rs imm
  | 0x0B => .immX .sltiu rt rs imm
  | 0x0C => .immX .andi rt rs imm
  | 0x0D => .immX .ori rt rs imm
  | 0x0F => .immX .lui rt rs imm
  | 0x20 => .immX .lb rt rs imm
  | 0x23 => .immX .lw rt rs imm
  | 0x24 => .immX .lbu rt rs imm
  | 0x25 => .immX .lhu rt rs imm
  | 0x28 => .immX .sb rt rs imm
  | 0x29 => .immX .sh rt rs imm
  | 0x2B => .immX .sw rt rs imm
  | _ => .invalid w

/-- `Decode(w, pc)` (40_dispatch.md R100). -/
def decodedRecord (w pc : Word) : Decoded :=
  let op := bitsAt w 26 6
  if op = 0x00 then recordR w
  else if op = 0x02 ∨ op = 0x03 then recordJ op w pc
  else recordI op w

end Sys2Proof.Machine
end

