-- ==== Sys2Proof/Machine/State.lean ====
section
/-! DEFINITION. The machine's state, its reset value, and the reasons a step can stop. -/

namespace Sys2Proof.Machine

/-- The block's ROM, ports and outputs, and what the caller has still to present and has taken.
`rom`, `w`, `pc`, `d`, `line`, `signals` are the block's (10_state.md R20, R26, R27, R29; 40_dispatch.md R111);
`inputs` and `listing` are the caller's side, the model's own fields (log entries 4 and 6). -/
structure State where
  /-- The register-name ROM (10_state.md R20): read-only, and with the five names of R21 in every value of its type. -/
  rom     : Rom
  /-- Input port: the instruction word (10_state.md R26). -/
  w       : Word
  /-- Input port: the word's address (10_state.md R27). -/
  pc      : Word
  /-- Output: the decoded record (10_state.md R29). -/
  d       : Decoded
  /-- Output: the line (10_state.md R29). -/
  line    : Text
  /-- Output: the signals (40_dispatch.md R111). -/
  signals : Signals
  /-- What the caller has still to present, oldest first (10_state.md R28; 70_reset_and_hazards.md R248). -/
  inputs  : List Input
  /-- The lines the caller has taken, oldest first (10_state.md R29; 70_reset_and_hazards.md R247). -/
  listing : List Text
  deriving DecidableEq, Repr

/-- Why a run faults: never. The block's one error kind is an ordinary output line, not a trap (60_exceptions.md R220,
R221), and no input faults (40_dispatch.md R110), so the type has no value. Safe: nothing can stop a run this way. -/
inductive Fault where
  deriving DecidableEq, Repr

/-- Why the machine gives an instruction no meaning. -/
inductive Refusal where
  /-- Raised by an arm of `exec` for an instruction that has no meaning yet; safe. No arm raises it: all 43 have one. -/
  | notModelled (mnemonic : String)
  deriving DecidableEq, Repr

/-- The block given `names` as `REG_NAMES`, the outputs as the combinational block drives them for the ports `w` and `pc`,
nothing presented yet (10_state.md R21, R22, R31, R32). -/
def State.powerUp (names : RegNames) (w pc : Word) : State where
  rom     := installNames names
  w       := w
  pc      := pc
  d       := decodedRecord w pc
  line    := render (installNames names) (decodedRecord w pc)
  signals := signalsOf (decodedRecord w pc) w
  inputs  := []
  listing := []

/-- Right after reset (10_state.md R32; 70_reset_and_hazards.md R240): the ROM holds `REG_NAMES` (here the default of R22,
PRESUMED, log entry 1); the outputs are those of the current inputs; the ports hold 0 (DESIGN CHOICE, log entry 2);
nothing is presented and no line is taken (DESIGN CHOICE, log entries 4 and 6). -/
def State.reset : State := State.powerUp defaultRegNames 0 0

end Sys2Proof.Machine
end

