-- ==== Sys2Proof/Machine/Ops.lean ====
section
/-! DEFINITION. The shared operations on the state: driving the outputs, the invalid verdict, and one operation per output
shape. -/

namespace Sys2Proof.Machine

/-- The block drives its outputs for the record `d` of the word `word`, and the caller takes the one line
(10_state.md R29; 40_dispatch.md R109; log entry 6). The ROM and the ports are not written (10_state.md R23, R28). -/
def emit (d : Decoded) (word : Word) (s : State) : State :=
  { s with
    d       := d
    line    := render s.rom d
    signals := signalsOf d word
    listing := s.listing ++ [render s.rom d] }

/-- What this hardware has in place of taking an exception (60_exceptions.md R220, R221): the decode returns normally with the
invalid record and its line; nothing is saved, no mode changes, the pc goes nowhere (R224). There is no return from it (R225). -/
def reportInvalid (word : Word) (s : State) : State := emit (.invalid word) word s

/-- The effect of a three-register instruction (41_register_format.md R131). -/
def threeRegister (m : Mnemonic) (rd rs rt : RegIdx) (word : Word) (s : State) : Host.Outcome State Fault Refusal :=
  .next (emit (.r3 m rd rs rt) word s)

/-- The effect of a shift instruction that shows the registers `a` and `b` (41_register_format.md R152 to R154). -/
def shiftShape (m : Mnemonic) (a b : RegIdx) (shamt : BitVec 5) (word : Word) (s : State) :
    Host.Outcome State Fault Refusal :=
  .next (emit (.shift m a b shamt) word s)

/-- The effect of a jump: its target is shown, taken with the region of the `pc` port; no control is transferred
(42_jump_format.md R170, R171; 10_state.md R28). -/
def jumpShape (m : Mnemonic) (target26 : BitVec 26) (word : Word) (s : State) : Host.Outcome State Fault Refusal :=
  .next (emit (.jump m (jumpTarget target26 s.pc)) word s)

/-- The effect of a signed-immediate instruction (43_immediate_format.md R181). -/
def signedImmediate (m : Mnemonic) (rt rs : RegIdx) (imm : BitVec 16) (word : Word) (s : State) :
    Host.Outcome State Fault Refusal :=
  .next (emit (.immS m rt rs imm) word s)

/-- The effect of a hex-immediate instruction (43_immediate_format.md R182). -/
def hexImmediate (m : Mnemonic) (rt rs : RegIdx) (imm : BitVec 16) (word : Word) (s : State) :
    Host.Outcome State Fault Refusal :=
  .next (emit (.immX m rt rs imm) word s)

end Sys2Proof.Machine
end

