-- ==== Sys2Proof/Machine/ImmediateFormat.lean ====
section
/-! DEFINITION. The meanings of the 18 immediate-format instructions (43_immediate_format.md). Branches compute no target
(R202), loads and stores make no access (R203). -/

namespace Sys2Proof.Machine

/-- `beq` (R187): `beq $rt, $rs, 0x<imm>`. -/
def execBeq (rt rs : BitVec 5) (imm : BitVec 16) (s : State) : Host.Outcome State Fault Refusal :=
  hexImmediate .beq rt rs imm (encode (.beq rt rs imm)) s

/-- `bne` (R189): `bne $rt, $rs, 0x<imm>`. -/
def execBne (rt rs : BitVec 5) (imm : BitVec 16) (s : State) : Host.Outcome State Fault Refusal :=
  hexImmediate .bne rt rs imm (encode (.bne rt rs imm)) s

/-- `blez` (R188): `blez $rt, $rs, 0x<imm>`. -/
def execBlez (rt rs : BitVec 5) (imm : BitVec 16) (s : State) : Host.Outcome State Fault Refusal :=
  hexImmediate .blez rt rs imm (encode (.blez rt rs imm)) s

/-- `bgtz` (R190): `bgtz $rt, $rs, 0x<imm>`. -/
def execBgtz (rt rs : BitVec 5) (imm : BitVec 16) (s : State) : Host.Outcome State Fault Refusal :=
  hexImmediate .bgtz rt rs imm (encode (.bgtz rt rs imm)) s

/-- `addi` (R183): `addi $rt, $rs, <s16(imm)>`. -/
def execAddi (rt rs : BitVec 5) (imm : BitVec 16) (s : State) : Host.Outcome State Fault Refusal :=
  signedImmediate .addi rt rs imm (encode (.addi rt rs imm)) s

/-- `addiu` (R185): `addiu $rt, $rs, 0x<imm>`. -/
def execAddiu (rt rs : BitVec 5) (imm : BitVec 16) (s : State) : Host.Outcome State Fault Refusal :=
  hexImmediate .addiu rt rs imm (encode (.addiu rt rs imm)) s

/-- `slti` (R184): `slti $rt, $rs, <s16(imm)>`. -/
def execSlti (rt rs : BitVec 5) (imm : BitVec 16) (s : State) : Host.Outcome State Fault Refusal :=
  signedImmediate .slti rt rs imm (encode (.slti rt rs imm)) s

/-- `sltiu` (R199): `sltiu $rt, $rs, 0x<imm>`. -/
def execSltiu (rt rs : BitVec 5) (imm : BitVec 16) (s : State) : Host.Outcome State Fault Refusal :=
  hexImmediate .sltiu rt rs imm (encode (.sltiu rt rs imm)) s

/-- `andi` (R186): `andi $rt, $rs, 0x<imm>`. -/
def execAndi (rt rs : BitVec 5) (imm : BitVec 16) (s : State) : Host.Outcome State Fault Refusal :=
  hexImmediate .andi rt rs imm (encode (.andi rt rs imm)) s

/-- `ori` (R196): `ori $rt, $rs, 0x<imm>`. -/
def execOri (rt rs : BitVec 5) (imm : BitVec 16) (s : State) : Host.Outcome State Fault Refusal :=
  hexImmediate .ori rt rs imm (encode (.ori rt rs imm)) s

/-- `lui` (R194): `lui $rt, $rs, 0x<imm>`. -/
def execLui (rt rs : BitVec 5) (imm : BitVec 16) (s : State) : Host.Outcome State Fault Refusal :=
  hexImmediate .lui rt rs imm (encode (.lui rt rs imm)) s

/-- `lb` (R191): `lb $rt, $rs, 0x<imm>`. -/
def execLb (rt rs : BitVec 5) (imm : BitVec 16) (s : State) : Host.Outcome State Fault Refusal :=
  hexImmediate .lb rt rs imm (encode (.lb rt rs imm)) s

/-- `lw` (R195): `lw $rt, $rs, 0x<imm>`. -/
def execLw (rt rs : BitVec 5) (imm : BitVec 16) (s : State) : Host.Outcome State Fault Refusal :=
  hexImmediate .lw rt rs imm (encode (.lw rt rs imm)) s

/-- `lbu` (R192): `lbu $rt, $rs, 0x<imm>`. -/
def execLbu (rt rs : BitVec 5) (imm : BitVec 16) (s : State) : Host.Outcome State Fault Refusal :=
  hexImmediate .lbu rt rs imm (encode (.lbu rt rs imm)) s

/-- `lhu` (R193): `lhu $rt, $rs, 0x<imm>`. -/
def execLhu (rt rs : BitVec 5) (imm : BitVec 16) (s : State) : Host.Outcome State Fault Refusal :=
  hexImmediate .lhu rt rs imm (encode (.lhu rt rs imm)) s

/-- `sb` (R197): `sb $rt, $rs, 0x<imm>`. -/
def execSb (rt rs : BitVec 5) (imm : BitVec 16) (s : State) : Host.Outcome State Fault Refusal :=
  hexImmediate .sb rt rs imm (encode (.sb rt rs imm)) s

/-- `sh` (R198): `sh $rt, $rs, 0x<imm>`. -/
def execSh (rt rs : BitVec 5) (imm : BitVec 16) (s : State) : Host.Outcome State Fault Refusal :=
  hexImmediate .sh rt rs imm (encode (.sh rt rs imm)) s

/-- `sw` (R200): `sw $rt, $rs, 0x<imm>`. -/
def execSw (rt rs : BitVec 5) (imm : BitVec 16) (s : State) : Host.Outcome State Fault Refusal :=
  hexImmediate .sw rt rs imm (encode (.sw rt rs imm)) s

end Sys2Proof.Machine
end

