-- ==== Sys2Proof/Machine/JumpFormat.lean ====
section
/-! DEFINITION. The meanings of the two jump-format instructions (42_jump_format.md). -/

namespace Sys2Proof.Machine

/-- `j` (R171): `j 0x<target>`. -/
def execJ (target26 : BitVec 26) (s : State) : Host.Outcome State Fault Refusal :=
  jumpShape .j target26 (encode (.j target26)) s

/-- `jal` (R172): `jal 0x<target>`. -/
def execJal (target26 : BitVec 26) (s : State) : Host.Outcome State Fault Refusal :=
  jumpShape .jal target26 (encode (.jal target26)) s

end Sys2Proof.Machine
end

