-- ==== Sys2Proof/Machine/RegisterFormat.lean ====
section
/-! DEFINITION. The meanings of the 23 register-format instructions (41_register_format.md). The block computes nothing: the
effect of each is its record, its line and its signals on the outputs (R130, D14). -/

namespace Sys2Proof.Machine

/-- `sll` (R152): `sll $rd, $rs, shamt`; `rt` is neither shown nor checked. -/
def execSll (rd rs rt shamt : BitVec 5) (s : State) : Host.Outcome State Fault Refusal :=
  shiftShape .sll rd rs shamt (encode (.sll rd rs rt shamt)) s

/-- `srl` (R153): `srl $rd, $rs, shamt`; `rt` is neither shown nor checked. -/
def execSrl (rd rs rt shamt : BitVec 5) (s : State) : Host.Outcome State Fault Refusal :=
  shiftShape .srl rd rs shamt (encode (.srl rd rs rt shamt)) s

/-- `sra` (R154): `sra $rd, $rd, shamt`; the destination register twice; `rs` and `rt` are neither shown nor checked. -/
def execSra (rd rs rt shamt : BitVec 5) (s : State) : Host.Outcome State Fault Refusal :=
  shiftShape .sra rd rd shamt (encode (.sra rd rs rt shamt)) s

/-- `jr` (R138): `jr $rd, $rs, $rt`; `shamt` is neither shown nor checked. -/
def execJr (rd rs rt shamt : BitVec 5) (s : State) : Host.Outcome State Fault Refusal :=
  threeRegister .jr rd rs rt (encode (.jr rd rs rt shamt)) s

/-- `jalr` (R137): `jalr $rd, $rs, $rt`; `shamt` is neither shown nor checked. -/
def execJalr (rd rs rt shamt : BitVec 5) (s : State) : Host.Outcome State Fault Refusal :=
  threeRegister .jalr rd rs rt (encode (.jalr rd rs rt shamt)) s

/-- `mfhi` (R139): `mfhi $rd, $rs, $rt`; `shamt` is neither shown nor checked. -/
def execMfhi (rd rs rt shamt : BitVec 5) (s : State) : Host.Outcome State Fault Refusal :=
  threeRegister .mfhi rd rs rt (encode (.mfhi rd rs rt shamt)) s

/-- `mthi` (R140): `mthi $rd, $rs, $rt`; `shamt` is neither shown nor checked. -/
def execMthi (rd rs rt shamt : BitVec 5) (s : State) : Host.Outcome State Fault Refusal :=
  threeRegister .mthi rd rs rt (encode (.mthi rd rs rt shamt)) s

/-- `mflo` (R141): `mflo $rd, $rs, $rt`; `shamt` is neither shown nor checked. -/
def execMflo (rd rs rt shamt : BitVec 5) (s : State) : Host.Outcome State Fault Refusal :=
  threeRegister .mflo rd rs rt (encode (.mflo rd rs rt shamt)) s

/-- `mtlo` (R142): `mtlo $rd, $rs, $rt`; `shamt` is neither shown nor checked. -/
def execMtlo (rd rs rt shamt : BitVec 5) (s : State) : Host.Outcome State Fault Refusal :=
  threeRegister .mtlo rd rs rt (encode (.mtlo rd rs rt shamt)) s

/-- `mult` (R143): `mult $rd, $rs, $rt`; `shamt` is neither shown nor checked. -/
def execMult (rd rs rt shamt : BitVec 5) (s : State) : Host.Outcome State Fault Refusal :=
  threeRegister .mult rd rs rt (encode (.mult rd rs rt shamt)) s

/-- `multu` (R144): `multu $rd, $rs, $rt`; `shamt` is neither shown nor checked. -/
def execMultu (rd rs rt shamt : BitVec 5) (s : State) : Host.Outcome State Fault Refusal :=
  threeRegister .multu rd rs rt (encode (.multu rd rs rt shamt)) s

/-- `div` (R135): `div $rd, $rs, $rt`; `shamt` is neither shown nor checked. -/
def execDiv (rd rs rt shamt : BitVec 5) (s : State) : Host.Outcome State Fault Refusal :=
  threeRegister .div rd rs rt (encode (.div rd rs rt shamt)) s

/-- `divu` (R136): `divu $rd, $rs, $rt`; `shamt` is neither shown nor checked. -/
def execDivu (rd rs rt shamt : BitVec 5) (s : State) : Host.Outcome State Fault Refusal :=
  threeRegister .divu rd rs rt (encode (.divu rd rs rt shamt)) s

/-- `add` (R132): `add $rd, $rs, $rt`; `shamt` is neither shown nor checked. -/
def execAdd (rd rs rt shamt : BitVec 5) (s : State) : Host.Outcome State Fault Refusal :=
  threeRegister .add rd rs rt (encode (.add rd rs rt shamt)) s

/-- `addu` (R133): `addu $rd, $rs, $rt`; `shamt` is neither shown nor checked. -/
def execAddu (rd rs rt shamt : BitVec 5) (s : State) : Host.Outcome State Fault Refusal :=
  threeRegister .addu rd rs rt (encode (.addu rd rs rt shamt)) s

/-- `sub` (R150): `sub $rd, $rs, $rt`; `shamt` is neither shown nor checked. -/
def execSub (rd rs rt shamt : BitVec 5) (s : State) : Host.Outcome State Fault Refusal :=
  threeRegister .sub rd rs rt (encode (.sub rd rs rt shamt)) s

/-- `subu` (R151): `subu $rd, $rs, $rt`; `shamt` is neither shown nor checked. -/
def execSubu (rd rs rt shamt : BitVec 5) (s : State) : Host.Outcome State Fault Refusal :=
  threeRegister .subu rd rs rt (encode (.subu rd rs rt shamt)) s

/-- `and` (R134): `and $rd, $rs, $rt`; `shamt` is neither shown nor checked. -/
def execAnd (rd rs rt shamt : BitVec 5) (s : State) : Host.Outcome State Fault Refusal :=
  threeRegister .and rd rs rt (encode (.and rd rs rt shamt)) s

/-- `or` (R147): `or $rd, $rs, $rt`; `shamt` is neither shown nor checked. -/
def execOr (rd rs rt shamt : BitVec 5) (s : State) : Host.Outcome State Fault Refusal :=
  threeRegister .or rd rs rt (encode (.or rd rs rt shamt)) s

/-- `xor` (R146): `xor $rd, $rs, $rt`; `shamt` is neither shown nor checked. -/
def execXor (rd rs rt shamt : BitVec 5) (s : State) : Host.Outcome State Fault Refusal :=
  threeRegister .xor rd rs rt (encode (.xor rd rs rt shamt)) s

/-- `nor` (R145): `nor $rd, $rs, $rt`; `shamt` is neither shown nor checked. -/
def execNor (rd rs rt shamt : BitVec 5) (s : State) : Host.Outcome State Fault Refusal :=
  threeRegister .nor rd rs rt (encode (.nor rd rs rt shamt)) s

/-- `slt` (R148): `slt $rd, $rs, $rt`; `shamt` is neither shown nor checked. -/
def execSlt (rd rs rt shamt : BitVec 5) (s : State) : Host.Outcome State Fault Refusal :=
  threeRegister .slt rd rs rt (encode (.slt rd rs rt shamt)) s

/-- `sltu` (R149): `sltu $rd, $rs, $rt`; `shamt` is neither shown nor checked. -/
def execSltu (rd rs rt shamt : BitVec 5) (s : State) : Host.Outcome State Fault Refusal :=
  threeRegister .sltu rd rs rt (encode (.sltu rd rs rt shamt)) s

end Sys2Proof.Machine
end

