-- ==== Sys2Proof/Machine/Dispatch.lean ====
section
/-! DEFINITION. One arm per instruction, each one call of its meaning. -/

namespace Sys2Proof.Machine

def exec (i : Instr) (s : State) : Host.Outcome State Fault Refusal :=
  match i with
  | .sll rd rs rt shamt => Sys2Proof.Machine.execSll rd rs rt shamt s
  | .srl rd rs rt shamt => Sys2Proof.Machine.execSrl rd rs rt shamt s
  | .sra rd rs rt shamt => Sys2Proof.Machine.execSra rd rs rt shamt s
  | .jr rd rs rt shamt => Sys2Proof.Machine.execJr rd rs rt shamt s
  | .jalr rd rs rt shamt => Sys2Proof.Machine.execJalr rd rs rt shamt s
  | .mfhi rd rs rt shamt => Sys2Proof.Machine.execMfhi rd rs rt shamt s
  | .mthi rd rs rt shamt => Sys2Proof.Machine.execMthi rd rs rt shamt s
  | .mflo rd rs rt shamt => Sys2Proof.Machine.execMflo rd rs rt shamt s
  | .mtlo rd rs rt shamt => Sys2Proof.Machine.execMtlo rd rs rt shamt s
  | .mult rd rs rt shamt => Sys2Proof.Machine.execMult rd rs rt shamt s
  | .multu rd rs rt shamt => Sys2Proof.Machine.execMultu rd rs rt shamt s
  | .div rd rs rt shamt => Sys2Proof.Machine.execDiv rd rs rt shamt s
  | .divu rd rs rt shamt => Sys2Proof.Machine.execDivu rd rs rt shamt s
  | .add rd rs rt shamt => Sys2Proof.Machine.execAdd rd rs rt shamt s
  | .addu rd rs rt shamt => Sys2Proof.Machine.execAddu rd rs rt shamt s
  | .sub rd rs rt shamt => Sys2Proof.Machine.execSub rd rs rt shamt s
  | .subu rd rs rt shamt => Sys2Proof.Machine.execSubu rd rs rt shamt s
  | .and rd rs rt shamt => Sys2Proof.Machine.execAnd rd rs rt shamt s
  | .or rd rs rt shamt => Sys2Proof.Machine.execOr rd rs rt shamt s
  | .xor rd rs rt shamt => Sys2Proof.Machine.execXor rd rs rt shamt s
  | .nor rd rs rt shamt => Sys2Proof.Machine.execNor rd rs rt shamt s
  | .slt rd rs rt shamt => Sys2Proof.Machine.execSlt rd rs rt shamt s
  | .sltu rd rs rt shamt => Sys2Proof.Machine.execSltu rd rs rt shamt s
  | .j target26 => Sys2Proof.Machine.execJ target26 s
  | .jal target26 => Sys2Proof.Machine.execJal target26 s
  | .beq rt rs imm => Sys2Proof.Machine.execBeq rt rs imm s
  | .bne rt rs imm => Sys2Proof.Machine.execBne rt rs imm s
  | .blez rt rs imm => Sys2Proof.Machine.execBlez rt rs imm s
  | .bgtz rt rs imm => Sys2Proof.Machine.execBgtz rt rs imm s
  | .addi rt rs imm => Sys2Proof.Machine.execAddi rt rs imm s
  | .addiu rt rs imm => Sys2Proof.Machine.execAddiu rt rs imm s
  | .slti rt rs imm => Sys2Proof.Machine.execSlti rt rs imm s
  | .sltiu rt rs imm => Sys2Proof.Machine.execSltiu rt rs imm s
  | .andi rt rs imm => Sys2Proof.Machine.execAndi rt rs imm s
  | .ori rt rs imm => Sys2Proof.Machine.execOri rt rs imm s
  | .lui rt rs imm => Sys2Proof.Machine.execLui rt rs imm s
  | .lb rt rs imm => Sys2Proof.Machine.execLb rt rs imm s
  | .lw rt rs imm => Sys2Proof.Machine.execLw rt rs imm s
  | .lbu rt rs imm => Sys2Proof.Machine.execLbu rt rs imm s
  | .lhu rt rs imm => Sys2Proof.Machine.execLhu rt rs imm s
  | .sb rt rs imm => Sys2Proof.Machine.execSb rt rs imm s
  | .sh rt rs imm => Sys2Proof.Machine.execSh rt rs imm s
  | .sw rt rs imm => Sys2Proof.Machine.execSw rt rs imm s

end Sys2Proof.Machine
end

