-- ==== Sys2Proof/Machine/Block.lean ====
section
/-! DEFINITION. The block as a whole: what it does with the word and the pc that stand on its ports. -/

namespace Sys2Proof.Machine

/-- The block decodes what stands on its ports: an instruction has its effect, any other word gets the invalid verdict
(30_encoding.md R74; 40_dispatch.md R109; 60_exceptions.md R221). -/
def decodePorts (s : State) : Host.Outcome State Fault Refusal :=
  match decode s.w with
  | .ok i    => exec i s
  | .error _ => .next (reportInvalid s.w s)

end Sys2Proof.Machine
end

