-- ==== Sys2Proof/Config.lean ====
section
/-! DEFINITION. The parameters the spec leaves to the caller (00_scope.md R5, `OPEN`). They are an argument of the
caller's functions in Machine/Caller.lean, never a value the model fixes. The third open parameter, `REG_NAMES`, is
an argument of `State.powerUp`, which installs it in the ROM. -/

namespace Sys2Proof.Config

/-- `WORD_BYTE_ORDER` (92_eei_decisions.md D3, 20_memory.md R42). -/
inductive ByteOrder where
  | little
  | big
  deriving DecidableEq, Repr

/-- The caller's two open parameters: the byte order of word assembly (D3) and `START_PC_RULE` (D9), the map from the
caller's start argument to the pc of the first word. -/
structure CallerParams where
  wordByteOrder : ByteOrder
  startPcRule   : Word → Word

end Sys2Proof.Config
end

