-- ==== Sys2Proof/Machine/Caller.lean ====
section
/-! DEFINITION. The caller's part of a listing, as far as the spec describes it: assembling a word from bytes, pairing each
word with its pc, and presenting the pairs to the block one per decode (10_state.md R28; 20_memory.md R42;
70_reset_and_hazards.md R247, R248). -/

namespace Sys2Proof.Machine

/-- The word of four bytes in file order, in the caller's byte order (20_memory.md R42, D3). -/
def assemble (order : Config.ByteOrder) (b0 b1 b2 b3 : Byte) : Word :=
  match order with
  | .little => b3 ++ b2 ++ b1 ++ b0
  | .big    => b0 ++ b1 ++ b2 ++ b3

/-- Each word with its pc: the first word has `pc`, and the pc advances by 4 modulo 2^32 for each successive word, whatever
the words decode to (10_state.md R28, D8). -/
def feed (pc : Word) : List Word → List Input
  | []      => []
  | w :: ws => ⟨w, pc⟩ :: feed (pc + 4) ws

/-- A file of words, each as its four bytes in file order, as the caller presents it from the start argument `start`
(10_state.md R28, D3, D9). -/
def listingInputs (p : Config.CallerParams) (start : Word) (file : List (Byte × Byte × Byte × Byte)) : List Input :=
  feed (p.startPcRule start) (file.map fun b => assemble p.wordByteOrder b.1 b.2.1 b.2.2.1 b.2.2.2)

/-- The program is set before the machine: the caller will present these pairs (log entry 7). -/
def loadInputs (inputs : List Input) (s : State) : State := { s with inputs := inputs }

/-- The caller presents its next pair on the ports, if it has one (70_reset_and_hazards.md R248). -/
def presentNext (s : State) : Option State :=
  match s.inputs with
  | []        => none
  | i :: rest => some { s with w := i.w, pc := i.pc, inputs := rest }

/-- The caller has nothing to present: the ports hold what they held, so the combinational outputs hold too, and no decode
call is made (10_state.md R31; DESIGN CHOICE, log entry 5). -/
def idle (s : State) : State := s

/-- The next word to be presented becomes `word`: the next pair keeps its pc; where none is left, one is made with the
value of the `pc` port (log entry 8). -/
def placeWord (word : Word) (s : State) : State :=
  match s.inputs with
  | []        => { s with inputs := [⟨word, s.pc⟩] }
  | i :: rest => { s with inputs := ⟨word, i.pc⟩ :: rest }

end Sys2Proof.Machine
end

