-- ==== Sys2Proof/Machine/Step.lean ====
section
/-! DEFINITION. One step is one decode: the caller presents its next word and pc, and the block's outputs follow
(40_dispatch.md R109; 70_reset_and_hazards.md R248; log entry 4). -/

namespace Sys2Proof.Machine

/-- One step: the pair the caller presents next is decoded; with none left nothing changes (log entries 4 and 5). -/
def step (s : State) : Host.Outcome State Fault Refusal :=
  match presentNext s with
  | none    => .next (idle s)
  | some s1 => decodePorts s1

/-- `s` with the instruction of the table's bits `w` as the next word the caller presents (log entries 7 and 8). -/
def State.withFetchWord (s : State) (nbits w : Nat) : State := placeWord (tableWord nbits w) s

end Sys2Proof.Machine
end

