-- ==== Sys2Proof/Safety.lean ====
section
/-! DEFINITION. What counts as a safe run of the decoder, and the terms the statements use: the machine-wide invariants, the
spec's tables as data, and readings of the printed text that do not call the renderers. -/

namespace Sys2Proof.Machine

/-! ### Invariants -/

/-- The outputs are a function of what stands on the ports and of the ROM (10_state.md R31, R32; 70_reset_and_hazards.md R242). -/
def OutputsFollowInputs (s : State) : Prop :=
  s.d = decodedRecord s.w s.pc ∧ s.line = render s.rom s.d ∧ s.signals = signalsOf s.d s.w

/-- The ROM holds the five names the source fixes (10_state.md R21). -/
def FixedNames (s : State) : Prop := romHoldsFixedNames (romNames s.rom) = true

/-- The record on the output is one that a decode may build (40_dispatch.md R101). -/
def RecordWellFormed (s : State) : Prop := s.d.wellFormed = true

/-- One line of ASCII text, ended by its only newline (40_dispatch.md R109). -/
def OneAsciiLine (t : Text) : Prop :=
  ∃ body : Text, t = body ++ ['\n'] ∧ '\n' ∉ body ∧ ∀ c ∈ body, c.toNat < 128

/-- Every ROM name is ASCII without a newline (00_scope.md R5, R9). -/
def RomNamesAscii (rom : Rom) : Prop := ∀ i : RegIdx, ∀ c ∈ romRead rom i, c.toNat < 128 ∧ c ≠ '\n'

/-- The ROM's names are ASCII, the line on the output is one line, and so is every line the caller took. -/
def LinesWellFormed (s : State) : Prop :=
  RomNamesAscii s.rom ∧ OneAsciiLine s.line ∧ ∀ l ∈ s.listing, OneAsciiLine l

/-- A safe step: it answers a next state (60_exceptions.md R221; 40_dispatch.md R110). -/
def SafeStep (s : State) : Prop := ∃ t, step s = .next t

/-! ### One decode, as a change of the state -/

/-- The pair `(w, pc)` is on the ports and `rest` is what the caller has still to present. -/
def onPorts (s : State) (w pc : Word) (rest : List Input) : State := { s with w := w, pc := pc, inputs := rest }

/-- The outputs are `d`, `line` and `g`, the caller has taken the line, and nothing else has changed. -/
def afterDecode (s : State) (d : Decoded) (line : Text) (g : Signals) : State :=
  { s with d := d, line := line, signals := g, listing := s.listing ++ [line] }

/-! ### The spec's tables -/

/-- A register-format instruction: its printed name, its id (40_dispatch.md R102), its function code (30_encoding.md R72) and
its constructor. -/
structure RegisterForm where
  text  : Text
  m     : Mnemonic
  id    : BitVec 6
  code  : BitVec 6
  instr : BitVec 5 → BitVec 5 → BitVec 5 → BitVec 5 → Instr

/-- The 20 three-register instructions (41_register_format.md R130, R131). -/
def threeRegisterForms : List RegisterForm :=
  [⟨"jr".toList, .jr, 3, 0x08, .jr⟩, ⟨"jalr".toList, .jalr, 4, 0x09, .jalr⟩, ⟨"mfhi".toList, .mfhi, 5, 0x10, .mfhi⟩,
   ⟨"mthi".toList, .mthi, 6, 0x11, .mthi⟩, ⟨"mflo".toList, .mflo, 7, 0x12, .mflo⟩, ⟨"mtlo".toList, .mtlo, 8, 0x13, .mtlo⟩,
   ⟨"mult".toList, .mult, 9, 0x18, .mult⟩, ⟨"multu".toList, .multu, 10, 0x19, .multu⟩, ⟨"div".toList, .div, 11, 0x1A, .div⟩,
   ⟨"divu".toList, .divu, 12, 0x1B, .divu⟩, ⟨"add".toList, .add, 13, 0x20, .add⟩, ⟨"addu".toList, .addu, 14, 0x21, .addu⟩,
   ⟨"sub".toList, .sub, 15, 0x22, .sub⟩, ⟨"subu".toList, .subu, 16, 0x23, .subu⟩, ⟨"and".toList, .and, 17, 0x24, .and⟩,
   ⟨"or".toList, .or, 18, 0x25, .or⟩, ⟨"xor".toList, .xor, 19, 0x26, .xor⟩, ⟨"nor".toList, .nor, 20, 0x27, .nor⟩,
   ⟨"slt".toList, .slt, 21, 0x2A, .slt⟩, ⟨"sltu".toList, .sltu, 22, 0x2B, .sltu⟩]

/-- The two shifts that show `rd` and `rs` (41_register_format.md R152, R153). -/
def rsShiftForms : List RegisterForm :=
  [⟨"sll".toList, .sll, 0, 0x00, .sll⟩, ⟨"srl".toList, .srl, 1, 0x02, .srl⟩]

/-- A jump: printed name, id, opcode, constructor. -/
structure JumpForm where
  text  : Text
  m     : Mnemonic
  id    : BitVec 6
  code  : BitVec 6
  instr : BitVec 26 → Instr

/-- The two jumps (42_jump_format.md R171, R172). -/
def jumpForms : List JumpForm :=
  [⟨"j".toList, .j, 23, 0x02, .j⟩, ⟨"jal".toList, .jal, 24, 0x03, .jal⟩]

/-- An immediate-format instruction: printed name, id, opcode, constructor. -/
structure ImmediateForm where
  text  : Text
  m     : Mnemonic
  id    : BitVec 6
  code  : BitVec 6
  instr : BitVec 5 → BitVec 5 → BitVec 16 → Instr

/-- The two signed-immediate instructions (43_immediate_format.md R181). -/
def signedForms : List ImmediateForm :=
  [⟨"addi".toList, .addi, 29, 0x08, .addi⟩, ⟨"slti".toList, .slti, 31, 0x0A, .slti⟩]

/-- The 16 hex-immediate instructions (43_immediate_format.md R182). -/
def hexForms : List ImmediateForm :=
  [⟨"beq".toList, .beq, 25, 0x04, .beq⟩, ⟨"bne".toList, .bne, 26, 0x05, .bne⟩, ⟨"blez".toList, .blez, 27, 0x06, .blez⟩,
   ⟨"bgtz".toList, .bgtz, 28, 0x07, .bgtz⟩, ⟨"addiu".toList, .addiu, 30, 0x09, .addiu⟩, ⟨"sltiu".toList, .sltiu, 32, 0x0B, .sltiu⟩,
   ⟨"andi".toList, .andi, 33, 0x0C, .andi⟩, ⟨"ori".toList, .ori, 34, 0x0D, .ori⟩, ⟨"lui".toList, .lui, 35, 0x0F, .lui⟩,
   ⟨"lb".toList, .lb, 36, 0x20, .lb⟩, ⟨"lw".toList, .lw, 37, 0x23, .lw⟩, ⟨"lbu".toList, .lbu, 38, 0x24, .lbu⟩,
   ⟨"lhu".toList, .lhu, 39, 0x25, .lhu⟩, ⟨"sb".toList, .sb, 40, 0x28, .sb⟩, ⟨"sh".toList, .sh, 41, 0x29, .sh⟩,
   ⟨"sw".toList, .sw, 42, 0x2B, .sw⟩]

/-- `mask` of the opcode table's row. -/
def tableMask : Mnemonic → Word
  | .sll => 0xFC00003F
  | .srl => 0xFC00003F
  | .sra => 0xFC00003F
  | .jr => 0xFC00003F
  | .jalr => 0xFC00003F
  | .mfhi => 0xFC00003F
  | .mthi => 0xFC00003F
  | .mflo => 0xFC00003F
  | .mtlo => 0xFC00003F
  | .mult => 0xFC00003F
  | .multu => 0xFC00003F
  | .div => 0xFC00003F
  | .divu => 0xFC00003F
  | .add => 0xFC00003F
  | .addu => 0xFC00003F
  | .sub => 0xFC00003F
  | .subu => 0xFC00003F
  | .and => 0xFC00003F
  | .or => 0xFC00003F
  | .xor => 0xFC00003F
  | .nor => 0xFC00003F
  | .slt => 0xFC00003F
  | .sltu => 0xFC00003F
  | .j => 0xFC000000
  | .jal => 0xFC000000
  | .beq => 0xFC000000
  | .bne => 0xFC000000
  | .blez => 0xFC000000
  | .bgtz => 0xFC000000
  | .addi => 0xFC000000
  | .addiu => 0xFC000000
  | .slti => 0xFC000000
  | .sltiu => 0xFC000000
  | .andi => 0xFC000000
  | .ori => 0xFC000000
  | .lui => 0xFC000000
  | .lb => 0xFC000000
  | .lw => 0xFC000000
  | .lbu => 0xFC000000
  | .lhu => 0xFC000000
  | .sb => 0xFC000000
  | .sh => 0xFC000000
  | .sw => 0xFC000000

/-- `match` of the opcode table's row. -/
def tableMatch : Mnemonic → Word
  | .sll => 0x00000000
  | .srl => 0x00000002
  | .sra => 0x00000003
  | .jr => 0x00000008
  | .jalr => 0x00000009
  | .mfhi => 0x00000010
  | .mthi => 0x00000011
  | .mflo => 0x00000012
  | .mtlo => 0x00000013
  | .mult => 0x00000018
  | .multu => 0x00000019
  | .div => 0x0000001A
  | .divu => 0x0000001B
  | .add => 0x00000020
  | .addu => 0x00000021
  | .sub => 0x00000022
  | .subu => 0x00000023
  | .and => 0x00000024
  | .or => 0x00000025
  | .xor => 0x00000026
  | .nor => 0x00000027
  | .slt => 0x0000002A
  | .sltu => 0x0000002B
  | .j => 0x08000000
  | .jal => 0x0C000000
  | .beq => 0x10000000
  | .bne => 0x14000000
  | .blez => 0x18000000
  | .bgtz => 0x1C000000
  | .addi => 0x20000000
  | .addiu => 0x24000000
  | .slti => 0x28000000
  | .sltiu => 0x2C000000
  | .andi => 0x30000000
  | .ori => 0x34000000
  | .lui => 0x3C000000
  | .lb => 0x80000000
  | .lw => 0x8C000000
  | .lbu => 0x90000000
  | .lhu => 0x94000000
  | .sb => 0xA0000000
  | .sh => 0xA4000000
  | .sw => 0xAC000000

/-! ### Reading printed text back -/

/-- The value of a digit character. -/
def digitValue (c : Char) : Nat := if c.toNat < 58 then c.toNat - 48 else c.toNat - 87

/-- The number a numeral denotes. -/
def numeralValue (base : Nat) (t : Text) : Nat := t.foldl (fun n c => base * n + digitValue c) 0

/-- A numeral of `base`: lowercase digits only, at least one, no leading zero but in `"0"` itself (40_dispatch.md R104, R105). -/
def IsNumeral (base : Nat) (t : Text) : Prop :=
  t ≠ [] ∧ (∀ c ∈ t, c ∈ "0123456789abcdef".toList.take base) ∧ (t.head? = some '0' → t = ['0'])

/-- The registers a record's line names, in order (30_encoding.md R79). -/
def recordRegisters : Decoded → List RegIdx
  | .r3 _ d s t => [d, s, t]
  | .shift _ a b _ => [a, b]
  | .jump _ _ => []
  | .immS _ t s _ => [t, s]
  | .immX _ t s _ => [t, s]
  | .invalid _ => []

/-- The mnemonic with a given id. -/
def mnemonicOfId (id : BitVec 6) : Option Mnemonic :=
  [.sll, .srl, .sra, .jr, .jalr, .mfhi, .mthi, .mflo, .mtlo, .mult, .multu, .div, .divu, .add, .addu,
   .sub, .subu, .and, .or, .xor, .nor, .slt, .sltu, .j, .jal, .beq, .bne, .blez, .bgtz, .addi,
   .addiu, .slti, .sltiu, .andi, .ori, .lui, .lb, .lw, .lbu, .lhu, .sb, .sh, .sw].find? fun m => m.id == id

/-- The record read back from the signals alone (40_dispatch.md R111), without the `word` signal. -/
def recordOfSignals (g : Signals) : Option Decoded :=
  match g.shape.toNat with
  | 0 => (mnemonicOfId g.mnem).map fun m => .r3 m g.slotA g.slotB g.slotC
  | 1 => (mnemonicOfId g.mnem).map fun m => .shift m g.slotA g.slotB (g.num.setWidth 5)
  | 2 => (mnemonicOfId g.mnem).map fun m => .jump m g.num
  | 3 => (mnemonicOfId g.mnem).map fun m => .immS m g.slotA g.slotB (g.num.setWidth 16)
  | 4 => (mnemonicOfId g.mnem).map fun m => .immX m g.slotA g.slotB (g.num.setWidth 16)
  | 5 => some (.invalid g.num)
  | _ => none

end Sys2Proof.Machine
end

