-- ==== Sys2Proof/Certificates/Slice0/Obligations.lean ====
section
/-! DEFINITION. The statements for the provers. `afterDecode s d line g` is the state in which the outputs are `d`, `line` and
`g`, the caller has taken `line`, and nothing else has changed (so a statement that a step or an instruction answers it
states the frame as well); `onPorts s w pc rest` is the state with `(w, pc)` on the ports. `decodePorts s` is one decode of what stands on the
ports of `s`, and needs nothing of the caller; a step presents the caller's next pair first. The block has no register
values, flags or memory (10_state.md R25, R30; 20_memory.md R41): the ROM, the two ports and the caller's queue are all there is to
leave unchanged. -/

open Sys2Proof Sys2Proof.Machine

/-! ### Encoding -/

/-- Decode and encode agree on every instruction, every operand at every value (30_encoding.md §3, §5). -/
def Obligations.DecodeOfEncode : Prop :=
  ∀ i : Instr, decode (encode i) = .ok i

/-- No bit of a recognized word is dropped: the instruction it decodes to encodes to the same word (30_encoding.md §2, §3). -/
def Obligations.EncodeOfDecode : Prop :=
  ∀ (w : Word) (i : Instr), decode w = .ok i → encode i = w

/-- Words written out bit by bit from the encoding patterns, one of each shape, decode to what they stand for. -/
def Obligations.WrittenWordsDecode : Prop :=
  decode 0b000000_00100_00101_00011_00111_100000 = .ok (.add 3 4 5 7)
    ∧ decode 0b000000_11111_00101_00011_00010_000011 = .ok (.sra 3 31 5 2)
    ∧ decode 0b000011_00000100000000000000000100 = .ok (.jal 0x0100004)
    ∧ decode 0b001000_00100_00011_1000000000000000 = .ok (.addi 3 4 0x8000)
    ∧ decode 0b101011_00100_00011_0000000000010000 = .ok (.sw 3 4 0x0010)
    ∧ decode 0b000000_00100_00101_00011_00000_001100 = .error .unrecognizedFunctionCode
    ∧ decode 0b001110_01000_01000_0000000000000001 = .error .unrecognizedOpcode

/-- R61: the slicer's eight fields, bit by bit, each at its place in the word and none extended. -/
def Obligations.SlicerTakesTheFields : Prop :=
  ∀ w : Word,
    (∀ k < 6, (slice w).op.getLsbD k = w.getLsbD (26 + k))
      ∧ (∀ k < 5, (slice w).rs.getLsbD k = w.getLsbD (21 + k))
      ∧ (∀ k < 5, (slice w).rt.getLsbD k = w.getLsbD (16 + k))
      ∧ (∀ k < 5, (slice w).rd.getLsbD k = w.getLsbD (11 + k))
      ∧ (∀ k < 5, (slice w).shamt.getLsbD k = w.getLsbD (6 + k))
      ∧ (∀ k < 6, (slice w).funct.getLsbD k = w.getLsbD k)
      ∧ (∀ k < 16, (slice w).imm.getLsbD k = w.getLsbD k)
      ∧ (∀ k < 26, (slice w).target26.getLsbD k = w.getLsbD k)

/-- The overlap of the fields (30_encoding.md §2, R62 as 90_conflicts.md C4 reads it): the six register-format fields make up
the word, `imm` covers rd, shamt and funct, `target26` covers rs, rt and imm. -/
def Obligations.FieldsMakeUpTheWord : Prop :=
  ∀ w : Word,
    ((slice w).op ++ (slice w).rs ++ (slice w).rt ++ (slice w).rd ++ (slice w).shamt ++ (slice w).funct : BitVec 32) = w
      ∧ (slice w).imm = ((slice w).rd ++ (slice w).shamt ++ (slice w).funct : BitVec 16)
      ∧ (slice w).target26 = ((slice w).rs ++ (slice w).rt ++ (slice w).imm : BitVec 26)

/-- Only the bits under the opcode table's mask select: a word decodes to an instruction of mnemonic `m` exactly when it
matches the row of `m` (30_encoding.md §5, R73 with its derived consequence that no other field is checked). -/
def Obligations.SelectionByMaskAndMatch : Prop :=
  ∀ (w : Word) (m : Mnemonic),
    (∃ i, decode w = .ok i ∧ i.mnemonic = m) ↔ w &&& tableMask m = tableMatch m

/-- The invalid space (30_encoding.md §6): a word is no instruction exactly when its opcode is 0 and its function code one of the
41 listed, or its opcode one of the 43 listed (the spec marks both lists as derived). -/
def Obligations.InvalidSpace : Prop :=
  ∀ w : Word, (∃ r, decode w = .error r) ↔ invalidWord w = true

/-- The size of the invalid space (30_encoding.md §6, the count the spec marks as derived). -/
def Obligations.InvalidSpaceSize : Prop :=
  Nat.card { w : Word // invalidWord w = true } = 41 * 2 ^ 20 + 43 * 2 ^ 26

/-! ### The step -/

/-- A step runs the decoded instruction: with `(w, pc)` the next pair the caller presents and `w` decoding to `i`, the step is
the decode of that pair on the ports, and that is `exec i` there. That a step presents one pair is the model's choice (log entry 4). -/
def Obligations.StepRunsTheDecodedInstruction : Prop :=
  ∀ (s : State) (w pc : Word) (rest : List Input),
    s.inputs = ⟨w, pc⟩ :: rest →
      step s = decodePorts (onPorts s w pc rest)
        ∧ ∀ i : Instr, decode w = .ok i → step s = exec i (onPorts s w pc rest)

/-- A step on a word of the invalid space answers the invalid record and line, drives the signals of 40_dispatch.md §4, and
leaves the rest unchanged (60_exceptions.md §1; the presenting and the taken line are log entries 4 and 6). -/
def Obligations.InvalidWordReports : Prop :=
  ∀ (s : State) (w pc : Word) (rest : List Input),
    s.inputs = ⟨w, pc⟩ :: rest → invalidWord w = true →
      step s = .next (afterDecode (onPorts s w pc rest) (.invalid w)
        ("invalid instruction 0x".toList ++ hexStr w ++ "\n".toList)
        { fmt := if w.extractLsb' 26 6 = 0 then 0 else 2, valid := 0, shape := 5, mnem := 63,
          slotA := w.extractLsb' 11 5, slotB := w.extractLsb' 21 5, slotC := w.extractLsb' 16 5, num := w, word := w })

/-- R221: an unrecognized encoding is not a trap. The decode answers a next state with the invalid line, the block's stored state
(the ROM) and both ports are unchanged, and the next decode, of any word at any pc, puts on the outputs what it puts there without
the invalid word before it. -/
def Obligations.InvalidWordIsNoTrap : Prop :=
  ∀ s : State, invalidWord s.w = true →
    ∃ t, decodePorts s = .next t ∧ t.d = .invalid s.w
      ∧ t.line = "invalid instruction 0x".toList ++ hexStr s.w ++ "\n".toList
      ∧ t.rom = s.rom ∧ t.w = s.w ∧ t.pc = s.pc
      ∧ ∀ w' pc' : Word, ∃ u v, decodePorts { t with w := w', pc := pc' } = .next u
          ∧ decodePorts { s with w := w', pc := pc' } = .next v
          ∧ u.d = v.d ∧ u.line = v.line ∧ u.signals = v.signals ∧ u.rom = v.rom

/-- With nothing to present a step changes nothing. The model's choice (log entry 5). -/
def Obligations.NothingPresentedChangesNothing : Prop :=
  ∀ s : State, s.inputs = [] → step s = .next s

/-- Every step answers a next state, and a step that presents a pair gives exactly one line, the one on the output
(40_dispatch.md §3, R110 with decision D15, R109; log entries 4, 5
and 6). -/
def Obligations.EveryStepAnswersOneLine : Prop :=
  ∀ s : State, ∃ t, step s = .next t ∧ (s.inputs ≠ [] → t.listing = s.listing ++ [t.line])

/-- The step through `Instr` is the spec's `Render(Decode(w, pc))`: outputs, frame and all (40_dispatch.md §1, §3; the presenting
and the taken line are log entries 4 and 6). -/
def Obligations.StepIsDecodeThenRender : Prop :=
  ∀ (s : State) (w pc : Word) (rest : List Input),
    s.inputs = ⟨w, pc⟩ :: rest →
      step s = .next (afterDecode (onPorts s w pc rest) (decodedRecord w pc)
        (render s.rom (decodedRecord w pc)) (signalsOf (decodedRecord w pc) w))

/-- A run over all the caller has to present gives the line of each pair, in the order of presenting, whatever the words are:
no jump, branch or invalid word changes which comes next (70_reset_and_hazards.md §2, §3; 10_state.md §3). The queue of pairs and
the listing are the model's own fields (log entries 4 and 6). -/
def Obligations.RunListsLinesInOrder : Prop :=
  ∀ s : State, ∃ t, Host.Core.run Sys2Proof.core s.inputs.length s = .next t
    ∧ t.listing = s.listing ++ s.inputs.map (fun i => render s.rom (decodedRecord i.w i.pc))
    ∧ t.inputs = [] ∧ t.rom = s.rom

/-- R31: the outputs of a decode are a function of `(w, pc, ROM)` alone; whatever came before, the same pair with the same ROM
gives the same record, line and signals. -/
def Obligations.OutputsDependOnInputsAndRomAlone : Prop :=
  ∀ s s' : State, s.w = s'.w → s.pc = s'.pc → s.rom = s'.rom →
    ∃ t t', decodePorts s = .next t ∧ decodePorts s' = .next t' ∧ t.d = t'.d ∧ t.line = t'.line ∧ t.signals = t'.signals

/-- Of the pc only bits 31 to 28 matter, and only under opcodes 2 and 3 (10_state.md §3, R27 with its derived sentence;
the presenting is log entry 4). -/
def Obligations.PcMattersOnlyForTheJumpRegion : Prop :=
  ∀ (s s' : State) (w pc pc' : Word) (rest rest' : List Input),
    s.inputs = ⟨w, pc⟩ :: rest → s'.inputs = ⟨w, pc'⟩ :: rest' → s.rom = s'.rom →
      (pc.extractLsb' 28 4 = pc'.extractLsb' 28 4 ∨ (w.extractLsb' 26 6 ≠ 0x02 ∧ w.extractLsb' 26 6 ≠ 0x03)) →
      ∃ t t', step s = .next t ∧ step s' = .next t' ∧ t.d = t'.d ∧ t.line = t'.line ∧ t.signals = t'.signals

/-- The caller's pairs: as many as words, each word in its order, the pc advancing by 4 modulo 2^32 (10_state.md §3, R28 with
decision D8). -/
def Obligations.FeedAdvancesPcByFour : Prop :=
  ∀ (pc : Word) (ws : List Word),
    (feed pc ws).length = ws.length
      ∧ ∀ (k : Nat) (w : Word), ws[k]? = some w → (feed pc ws)[k]? = some ⟨w, pc + BitVec.ofNat 32 (4 * k)⟩

/-- The caller's assembly of a word: in little-endian order the k-th byte of the file is byte k of the value, in big-endian
order byte 3 - k (20_memory.md §2, the two values of the open parameter D3; log entry 7). -/
def Obligations.AssembleFollowsByteOrder : Prop :=
  ∀ b0 b1 b2 b3 : Byte,
    (assemble .little b0 b1 b2 b3).toNat = b0.toNat + 2 ^ 8 * b1.toNat + 2 ^ 16 * b2.toNat + 2 ^ 24 * b3.toNat
      ∧ (assemble .big b0 b1 b2 b3).toNat = b3.toNat + 2 ^ 8 * b2.toNat + 2 ^ 16 * b1.toNat + 2 ^ 24 * b0.toNat

/-! ### Instructions: completion, result and frame -/

/-- Completion, for jr, jalr, mfhi, mthi, mflo, mtlo, mult, multu, div, divu, add, addu, sub, subu, and, or, xor, nor, slt and
sltu: on every state and all operands the instruction answers the next state whose record is `R3(m, rd, rs, rt)`, whose line is
`<m> $rd, $rs, $rt`, whose signals are those of 40_dispatch.md §4, and in which nothing else has changed (the taken line is log
entry 6). -/
def Obligations.ThreeRegisterInstructionsComplete : Prop :=
  ∀ f ∈ threeRegisterForms, ∀ (rd rs rt shamt : BitVec 5) (s : State),
    exec (f.instr rd rs rt shamt) s = .next (afterDecode s (.r3 f.m rd rs rt)
      (f.text ++ " $".toList ++ romRead s.rom rd ++ ", $".toList ++ romRead s.rom rs ++ ", $".toList
        ++ romRead s.rom rt ++ "\n".toList)
      { fmt := 0, valid := 1, shape := 0, mnem := f.id, slotA := rd, slotB := rs, slotC := rt,
        num := shamt.setWidth 32, word := (0 : BitVec 6) ++ rs ++ rt ++ rd ++ shamt ++ f.code })

/-- Completion, for sll and srl: record `Shift(m, rd, rs, shamt)`, line `<m> $rd, $rs, shamt` (log entry 6 for the taken line). -/
def Obligations.SllSrlComplete : Prop :=
  ∀ f ∈ rsShiftForms, ∀ (rd rs rt shamt : BitVec 5) (s : State),
    exec (f.instr rd rs rt shamt) s = .next (afterDecode s (.shift f.m rd rs shamt)
      (f.text ++ " $".toList ++ romRead s.rom rd ++ ", $".toList ++ romRead s.rom rs ++ ", ".toList
        ++ decStr shamt ++ "\n".toList)
      { fmt := 0, valid := 1, shape := 1, mnem := f.id, slotA := rd, slotB := rs, slotC := rt,
        num := shamt.setWidth 32, word := (0 : BitVec 6) ++ rs ++ rt ++ rd ++ shamt ++ f.code })

/-- Completion, for sra: record `Shift(sra, rd, rd, shamt)`, line `sra $rd, $rd, shamt` (log entry 6 for the taken line). -/
def Obligations.SraCompletes : Prop :=
  ∀ (rd rs rt shamt : BitVec 5) (s : State),
    exec (.sra rd rs rt shamt) s = .next (afterDecode s (.shift .sra rd rd shamt)
      ("sra $".toList ++ romRead s.rom rd ++ ", $".toList ++ romRead s.rom rd ++ ", ".toList
        ++ decStr shamt ++ "\n".toList)
      { fmt := 0, valid := 1, shape := 1, mnem := 2, slotA := rd, slotB := rd, slotC := rt,
        num := shamt.setWidth 32, word := (0 : BitVec 6) ++ rs ++ rt ++ rd ++ shamt ++ (0x03 : BitVec 6) })

/-- Completion, for j and jal: record `Jump(m, target)` with the target in the region of the pc port, line `<m> 0x<target>`; the
pc port is not written and the caller's next pair is the same (log entry 6 for the taken line). -/
def Obligations.JumpsComplete : Prop :=
  ∀ f ∈ jumpForms, ∀ (target26 : BitVec 26) (s : State),
    exec (f.instr target26) s = .next (afterDecode s (.jump f.m (s.pc.extractLsb' 28 4 ++ target26 ++ (0 : BitVec 2)))
      (f.text ++ " 0x".toList ++ hexStr (s.pc.extractLsb' 28 4 ++ target26 ++ (0 : BitVec 2)) ++ "\n".toList)
      { fmt := 1, valid := 1, shape := 2, mnem := f.id, slotA := target26.extractLsb' 11 5,
        slotB := target26.extractLsb' 21 5, slotC := target26.extractLsb' 16 5,
        num := s.pc.extractLsb' 28 4 ++ target26 ++ (0 : BitVec 2), word := f.code ++ target26 })

/-- Completion, for addi and slti: record `ImmS(m, rt, rs, imm)`, line `<m> $rt, $rs, <signed decimal>` (log entry 6 for the taken
line). -/
def Obligations.SignedImmediateInstructionsComplete : Prop :=
  ∀ f ∈ signedForms, ∀ (rt rs : BitVec 5) (imm : BitVec 16) (s : State),
    exec (f.instr rt rs imm) s = .next (afterDecode s (.immS f.m rt rs imm)
      (f.text ++ " $".toList ++ romRead s.rom rt ++ ", $".toList ++ romRead s.rom rs ++ ", ".toList
        ++ sDecStr imm ++ "\n".toList)
      { fmt := 2, valid := 1, shape := 3, mnem := f.id, slotA := rt, slotB := rs, slotC := rt,
        num := imm.setWidth 32, word := f.code ++ rs ++ rt ++ imm })

/-- Completion, for beq, bne, blez, bgtz, addiu, sltiu, andi, ori, lui, lb, lw, lbu, lhu, sb, sh and sw: record
`ImmX(m, rt, rs, imm)`, line `<m> $rt, $rs, 0x<imm>`; branches show no target and move no pc, loads and stores touch no memory (log
entry 6 for the taken line). -/
def Obligations.HexImmediateInstructionsComplete : Prop :=
  ∀ f ∈ hexForms, ∀ (rt rs : BitVec 5) (imm : BitVec 16) (s : State),
    exec (f.instr rt rs imm) s = .next (afterDecode s (.immX f.m rt rs imm)
      (f.text ++ " $".toList ++ romRead s.rom rt ++ ", $".toList ++ romRead s.rom rs ++ ", 0x".toList
        ++ hexStr imm ++ "\n".toList)
      { fmt := 2, valid := 1, shape := 4, mnem := f.id, slotA := rt, slotB := rs, slotC := rt,
        num := imm.setWidth 32, word := f.code ++ rs ++ rt ++ imm })

/-- The frame, for all 43 instructions at once: each answers a next state in which the ROM, both ports and the caller's queue are
unchanged and exactly the line on the output has been taken (10_state.md §1, §3, §5; log entry 6 for the taken line). -/
def Obligations.EveryInstructionCompletesWithFrame : Prop :=
  ∀ (i : Instr) (s : State), ∃ t, exec i s = .next t
    ∧ t.rom = s.rom ∧ t.w = s.w ∧ t.pc = s.pc ∧ t.inputs = s.inputs ∧ t.listing = s.listing ++ [t.line]

/-! ### What a presented word prints -/

/-- R131: every word with opcode 0 and one of the 20 non-shift function codes prints its mnemonic, one space, and the names of
rd, rs and rt in that order, each after a `$`, separated by `", "`, and a newline. -/
def Obligations.ThreeRegisterWordsPrintRdRsRt : Prop :=
  ∀ f ∈ threeRegisterForms, ∀ s : State, s.w.extractLsb' 26 6 = 0 → s.w.extractLsb' 0 6 = f.code →
    ∃ t, decodePorts s = .next t ∧ t.line = f.text ++ " $".toList ++ romRead s.rom (s.w.extractLsb' 11 5)
      ++ ", $".toList ++ romRead s.rom (s.w.extractLsb' 21 5)
      ++ ", $".toList ++ romRead s.rom (s.w.extractLsb' 16 5) ++ "\n".toList

/-- R152, R153: every word that matches the row of sll or srl gives `Shift(m, rd, rs, shamt)` and prints rd, rs and the decimal
count; rt plays no part. -/
def Obligations.SllSrlWordsPrintRdRsCount : Prop :=
  ∀ f ∈ rsShiftForms, ∀ s : State, s.w &&& 0xFC00003F#32 = f.code.setWidth 32 →
    ∃ t, decodePorts s = .next t
      ∧ t.d = .shift f.m (s.w.extractLsb' 11 5) (s.w.extractLsb' 21 5) (s.w.extractLsb' 6 5)
      ∧ t.line = f.text ++ " $".toList ++ romRead s.rom (s.w.extractLsb' 11 5)
          ++ ", $".toList ++ romRead s.rom (s.w.extractLsb' 21 5)
          ++ ", ".toList ++ decStr (s.w.extractLsb' 6 5) ++ "\n".toList

/-- Every word that matches the row of sra gives `Shift(sra, rd, rd, shamt)` and prints rd twice and the decimal count
(41_register_format.md §3, R154's pseudocode); and, the spec's own derived sentence there, two such words that differ only in rs or rt
print the same line. -/
def Obligations.SraWordsPrintRdTwice : Prop :=
  (∀ s : State, s.w &&& 0xFC00003F#32 = 0x00000003#32 →
    ∃ t, decodePorts s = .next t
      ∧ t.d = .shift .sra (s.w.extractLsb' 11 5) (s.w.extractLsb' 11 5) (s.w.extractLsb' 6 5)
      ∧ t.line = "sra $".toList ++ romRead s.rom (s.w.extractLsb' 11 5)
          ++ ", $".toList ++ romRead s.rom (s.w.extractLsb' 11 5)
          ++ ", ".toList ++ decStr (s.w.extractLsb' 6 5) ++ "\n".toList)
  ∧ ∀ (s : State) (w' : Word),
      s.w &&& 0xFC00003F#32 = 0x00000003#32 → w' &&& 0xFC00FFFF#32 = s.w &&& 0xFC00FFFF#32 →
        ∃ t t', decodePorts s = .next t ∧ decodePorts { s with w := w' } = .next t' ∧ t.line = t'.line

/-- R170: under opcodes 2 and 3 the target is `((w & 0x3FFFFFF) << 2) | (pc & 0xF0000000)`, which is
`pc[31:28] ++ w[25:0] ++ 0b00`; opcode 2 is `j`, opcode 3 is `jal`. -/
def Obligations.JumpWordsGiveThePseudoDirectTarget : Prop :=
  ∀ s : State, (s.w.extractLsb' 26 6 = 0x02 ∨ s.w.extractLsb' 26 6 = 0x03) →
    ∃ t, decodePorts s = .next t
      ∧ t.d = .jump (if s.w.extractLsb' 26 6 = 0x02 then .j else .jal)
          (((s.w &&& 0x3FFFFFF#32) <<< 2) ||| (s.pc &&& 0xF0000000#32))
      ∧ ((s.w &&& 0x3FFFFFF#32) <<< 2) ||| (s.pc &&& 0xF0000000#32)
          = s.pc.extractLsb' 28 4 ++ s.w.extractLsb' 0 26 ++ (0 : BitVec 2)
      ∧ t.line = (if s.w.extractLsb' 26 6 = 0x02 then "j 0x".toList else "jal 0x".toList)
          ++ hexStr (((s.w &&& 0x3FFFFFF#32) <<< 2) ||| (s.pc &&& 0xF0000000#32)) ++ "\n".toList

/-- The jump's record shows a target in the region of its own address and on a word boundary (42_jump_format.md §1, R174, and
20_memory.md §3, both derived there; the presenting is log entry 4). -/
def Obligations.JumpTargetStaysInItsRegion : Prop :=
  ∀ (s : State) (w pc : Word) (rest : List Input),
    s.inputs = ⟨w, pc⟩ :: rest → (w.extractLsb' 26 6 = 0x02 ∨ w.extractLsb' 26 6 = 0x03) →
      ∃ t m target, step s = .next t ∧ t.d = .jump m target
        ∧ target.extractLsb' 28 4 = pc.extractLsb' 28 4 ∧ target.extractLsb' 0 2 = 0

/-- The words of addi and slti print the immediate as a signed decimal, and print once (43_immediate_format.md §1, R181 with its
derived sentence; log entry 4 for the presenting, 6 for the taken line). -/
def Obligations.SignedImmediateWordsPrintDecimal : Prop :=
  ∀ f ∈ signedForms, ∀ (s : State) (w pc : Word) (rest : List Input),
    s.inputs = ⟨w, pc⟩ :: rest → w.extractLsb' 26 6 = f.code →
      ∃ t, step s = .next t
        ∧ t.d = .immS f.m (w.extractLsb' 16 5) (w.extractLsb' 21 5) (w.extractLsb' 0 16)
        ∧ t.line = f.text ++ " $".toList ++ romRead s.rom (w.extractLsb' 16 5)
            ++ ", $".toList ++ romRead s.rom (w.extractLsb' 21 5)
            ++ ", ".toList ++ sDecStr (w.extractLsb' 0 16) ++ "\n".toList
        ∧ t.listing = s.listing ++ [t.line]

/-- The words of the 16 other recognized opcodes print the raw field as unsigned hex, branches, loads and stores among them
(43_immediate_format.md §1, §5, R182 with decision D4 on leading zeros; the presenting is log entry 4). -/
def Obligations.HexImmediateWordsPrintHex : Prop :=
  ∀ f ∈ hexForms, ∀ (s : State) (w pc : Word) (rest : List Input),
    s.inputs = ⟨w, pc⟩ :: rest → w.extractLsb' 26 6 = f.code →
      ∃ t, step s = .next t
        ∧ t.d = .immX f.m (w.extractLsb' 16 5) (w.extractLsb' 21 5) (w.extractLsb' 0 16)
        ∧ t.line = f.text ++ " $".toList ++ romRead s.rom (w.extractLsb' 16 5)
            ++ ", $".toList ++ romRead s.rom (w.extractLsb' 21 5)
            ++ ", 0x".toList ++ hexStr (w.extractLsb' 0 16) ++ "\n".toList

/-! ### The renderers -/

/-- `HexStr(v)` of any width is the lowercase base-16 numeral of `u(v)` without leading zeros (40_dispatch.md §2, R104 with
decision D4). -/
def Obligations.HexStrSpellsTheValue : Prop :=
  ∀ (n : Nat) (v : BitVec n), IsNumeral 16 (hexStr v) ∧ numeralValue 16 (hexStr v) = v.toNat

/-- `DecStr(v)` of any width is the base-10 numeral of `u(v)` without sign or leading zeros (40_dispatch.md §2, R105 with decision
D5). -/
def Obligations.DecStrSpellsTheValue : Prop :=
  ∀ (n : Nat) (v : BitVec n), IsNumeral 10 (decStr v) ∧ numeralValue 10 (decStr v) = v.toNat

/-- `SDecStr(imm)` is the numeral of the two's-complement reading, with `-` before a negative one and never a `+`
(40_dispatch.md §2, R106 with decision D5). -/
def Obligations.SDecStrSpellsTheSignedValue : Prop :=
  ∀ v : BitVec 16,
    (v.toInt < 0 → ∃ t, sDecStr v = '-' :: t ∧ IsNumeral 10 t ∧ (numeralValue 10 t : Int) = -v.toInt)
      ∧ (0 ≤ v.toInt → IsNumeral 10 (sDecStr v) ∧ (numeralValue 10 (sDecStr v) : Int) = v.toInt)

/-- A line depends on the ROM only through the at most three entries its record names (20_memory.md §4; 40_dispatch.md §3). -/
def Obligations.RenderReadsAtMostThreeEntries : Prop :=
  ∀ (d : Decoded) (rom rom' : Rom),
    (recordRegisters d).length ≤ 3
      ∧ ((∀ i ∈ recordRegisters d, romRead rom i = romRead rom' i) → render rom d = render rom' d)

/-- Two different records that a decode may build never give the same line when the ROM's names are distinct and hold no comma,
space or newline (40_dispatch.md §4, R112, derived there). -/
def Obligations.LinesTellRecordsApart : Prop :=
  ∀ (rom : Rom), romNamesDistinctAndPlain (romNames rom) = true →
    ∀ d d' : Decoded, d.wellFormed = true → d'.wellFormed = true → render rom d = render rom d' → d = d'

/-! ### The signals -/

/-- The signals carry the record: it can be read back from them without the `word` signal (40_dispatch.md §4, R111 with decision
D19; the presenting is log entry 4). -/
def Obligations.SignalsCarryTheRecord : Prop :=
  ∀ (s : State) (w pc : Word) (rest : List Input),
    s.inputs = ⟨w, pc⟩ :: rest →
      ∃ t, step s = .next t ∧ recordOfSignals t.signals = some t.d

/-- The table of signals, read off the word and the pc: `fmt` is the routing and never 3, `valid` is 0 exactly in the invalid space,
`shape` and `mnem` have the number of the shape and the id of the mnemonic (5 and 63 in the invalid space) for every function code and
every opcode, and each wire carries the field of its row (40_dispatch.md §4, R111 with decision D19, and §1, R102 for the ids; the
presenting is log entry 4). -/
def Obligations.SignalsFollowTheTable : Prop :=
  ∀ (s : State) (w pc : Word) (rest : List Input),
    s.inputs = ⟨w, pc⟩ :: rest →
      ∃ t, step s = .next t
        ∧ t.signals.fmt = (if w.extractLsb' 26 6 = 0 then 0
            else if w.extractLsb' 26 6 = 0x02 ∨ w.extractLsb' 26 6 = 0x03 then 1 else 2)
        ∧ t.signals.valid = (if invalidWord w = true then 0 else 1)
        ∧ (∀ f ∈ threeRegisterForms, w.extractLsb' 26 6 = 0 → w.extractLsb' 0 6 = f.code →
            t.signals.shape = 0 ∧ t.signals.mnem = f.id)
        ∧ (∀ f ∈ rsShiftForms, w.extractLsb' 26 6 = 0 → w.extractLsb' 0 6 = f.code →
            t.signals.shape = 1 ∧ t.signals.mnem = f.id)
        ∧ (w.extractLsb' 26 6 = 0 → w.extractLsb' 0 6 = 0x03 → t.signals.shape = 1 ∧ t.signals.mnem = 2)
        ∧ (∀ f ∈ jumpForms, w.extractLsb' 26 6 = f.code → t.signals.shape = 2 ∧ t.signals.mnem = f.id)
        ∧ (∀ f ∈ signedForms, w.extractLsb' 26 6 = f.code → t.signals.shape = 3 ∧ t.signals.mnem = f.id)
        ∧ (∀ f ∈ hexForms, w.extractLsb' 26 6 = f.code → t.signals.shape = 4 ∧ t.signals.mnem = f.id)
        ∧ (invalidWord w = true → t.signals.shape = 5 ∧ t.signals.mnem = 63)
        ∧ t.signals.slotA = (if t.signals.fmt = 2 ∧ invalidWord w = false then w.extractLsb' 16 5
            else w.extractLsb' 11 5)
        ∧ t.signals.slotB = (if w &&& 0xFC00003F#32 = 0x00000003#32 then w.extractLsb' 11 5 else w.extractLsb' 21 5)
        ∧ t.signals.slotC = w.extractLsb' 16 5
        ∧ t.signals.num = (if invalidWord w = true then w
            else if t.signals.fmt = 0 then (w.extractLsb' 6 5).setWidth 32
            else if t.signals.fmt = 1 then ((w &&& 0x3FFFFFF#32) <<< 2) ||| (pc &&& 0xF0000000#32)
            else (w.extractLsb' 0 16).setWidth 32)
        ∧ t.signals.word = w

/-! ### Invariants -/

/-- R23: a read selects exactly one entry for every index, and no instruction, no decode of any inputs and no step writes the
ROM. -/
def Obligations.NothingWritesTheRom : Prop :=
  (∀ (rom : Rom) (i : RegIdx), (romNames rom).toArray[i.toNat]? = some (romRead rom i))
    ∧ (∀ (i : Instr) (s t : State), exec i s = .next t → t.rom = s.rom)
    ∧ (∀ s t : State, decodePorts s = .next t → t.rom = s.rom)
    ∧ (∀ s t : State, step s = .next t → t.rom = s.rom)

/-- R242: after power-up with any `REG_NAMES` and any inputs, and after every decode, whatever the outputs were before it, the outputs are
those of the inputs on the ports: `Decode(w, pc)`, its rendered line, and its signals. -/
def Obligations.ADecodeLeavesNoStaleOutput : Prop :=
  (∀ (names : RegNames) (w pc : Word), OutputsFollowInputs (State.powerUp names w pc))
    ∧ ∀ s t : State, decodePorts s = .next t → t.w = s.w ∧ t.pc = s.pc ∧ OutputsFollowInputs t

/-- The outputs follow the ports: every step that starts from such a state, or that presents a pair, leaves such a state
(10_state.md §5, §6; a step that presents nothing is log entry 5, the presenting log entry 4). -/
def Obligations.OutputsFollowInputsAlways : Prop :=
  ∀ s t : State, step s = .next t → (OutputsFollowInputs s ∨ s.inputs ≠ []) → OutputsFollowInputs t

/-- R21: entries 0, 3, 4, 5 and 31 hold `zero`, `v1`, `a0`, `a1` and `ra`, whatever `REG_NAMES` the block is given at power-up, in
every state, and so after every step. -/
def Obligations.FixedNamesKept : Prop :=
  (∀ (names : RegNames) (w pc : Word),
    romRead (State.powerUp names w pc).rom 0 = "zero".toList
      ∧ romRead (State.powerUp names w pc).rom 3 = "v1".toList
      ∧ romRead (State.powerUp names w pc).rom 4 = "a0".toList
      ∧ romRead (State.powerUp names w pc).rom 5 = "a1".toList
      ∧ romRead (State.powerUp names w pc).rom 31 = "ra".toList)
    ∧ (∀ s : State, FixedNames s)
    ∧ ∀ s t : State, step s = .next t → FixedNames t

/-- The record on the output stays one of the combinations a decode may build (40_dispatch.md §1, R101, derived there). -/
def Obligations.RecordStaysWellFormed : Prop :=
  ∀ s t : State, RecordWellFormed s → step s = .next t → RecordWellFormed t

/-- Every line, on the output and taken, stays one line of ASCII text, given ASCII names in the ROM (40_dispatch.md §3, R109 with
decision D12; the listing is log entry 6). -/
def Obligations.LinesStayWellFormed : Prop :=
  ∀ s t : State, LinesWellFormed s → step s = .next t → LinesWellFormed t

/-- Reset meets every invariant (10_state.md §6). The reset names outside R21's five, the ports at 0 and the empty queues are the
model's choices (log entries 1, 2, 4 and 6); this statement rests on them. -/
def Obligations.ResetMeetsTheInvariants : Prop :=
  OutputsFollowInputs State.reset ∧ FixedNames State.reset ∧ RecordWellFormed State.reset ∧ LinesWellFormed State.reset
    ∧ State.reset.w = 0 ∧ State.reset.pc = 0 ∧ State.reset.inputs = [] ∧ State.reset.listing = []

/-- The open parameter: at power-up every entry outside R21's five reads as the given `REG_NAMES` says, and a `REG_NAMES` that meets
the constraint is the whole ROM (10_state.md §1, R22 with decision D6; what is done with a table that does not meet it is log
entry 13). -/
def Obligations.PowerUpTakesRegNames : Prop :=
  ∀ (names : RegNames) (w pc : Word),
    (∀ i : RegIdx, i ∉ ([0, 3, 4, 5, 31] : List RegIdx) → romRead (State.powerUp names w pc).rom i = names.get i.toFin)
      ∧ (romHoldsFixedNames names = true → romNames (State.powerUp names w pc).rom = names)
end

