-- ==== Sys2Proof/Laws/Decode.lean ====
section
/-! SUPPORT. The slicer on the three layouts, the layouts rebuilt from the sliced fields, and the bits under the opcode
table's masks. -/

namespace Sys2Proof

theorem slice_encodeR (rs rt rd shamt : BitVec 5) (funct : BitVec 6) :
    slice (encodeR rs rt rd shamt funct) =
      { op := 0, rs := rs, rt := rt, rd := rd, shamt := shamt, funct := funct,
        imm := rd ++ shamt ++ funct, target26 := rs ++ rt ++ rd ++ shamt ++ funct } := by
  simp only [slice, encodeR, Fields.mk.injEq]
  refine ⟨?_, ?_, ?_, ?_, ?_, ?_, ?_, ?_⟩ <;> ext k hk <;> simp <;> grind

theorem slice_encodeJ (op : BitVec 6) (target26 : BitVec 26) :
    slice (encodeJ op target26) =
      { op := op, rs := target26.extractLsb' 21 5, rt := target26.extractLsb' 16 5, rd := target26.extractLsb' 11 5,
        shamt := target26.extractLsb' 6 5, funct := target26.extractLsb' 0 6, imm := target26.extractLsb' 0 16,
        target26 := target26 } := by
  simp only [slice, encodeJ, Fields.mk.injEq]
  refine ⟨?_, ?_, ?_, ?_, ?_, ?_, ?_, ?_⟩ <;> ext k hk <;> simp <;> grind

theorem slice_encodeI (op : BitVec 6) (rs rt : BitVec 5) (imm : BitVec 16) :
    slice (encodeI op rs rt imm) =
      { op := op, rs := rs, rt := rt, rd := imm.extractLsb' 11 5, shamt := imm.extractLsb' 6 5,
        funct := imm.extractLsb' 0 6, imm := imm, target26 := rs ++ rt ++ imm } := by
  simp only [slice, encodeI, Fields.mk.injEq]
  refine ⟨?_, ?_, ?_, ?_, ?_, ?_, ?_, ?_⟩ <;> ext k hk <;> simp <;> grind

/-- The register layout rebuilt from the fields of a word with opcode 0. -/
theorem encodeR_slice {w : Word} (h : (slice w).op = 0) :
    encodeR (slice w).rs (slice w).rt (slice w).rd (slice w).shamt (slice w).funct = w := by
  have : (0 : BitVec 6) = w.extractLsb' 26 6 := h.symm
  simp only [encodeR, slice, this]
  ext k hk; simp; grind

theorem encodeJ_slice (w : Word) : encodeJ (slice w).op (slice w).target26 = w := by
  simp only [encodeJ, slice]
  ext k hk; simp; grind

theorem encodeI_slice (w : Word) : encodeI (slice w).op (slice w).rs (slice w).rt (slice w).imm = w := by
  simp only [encodeI, slice]
  ext k hk; simp; grind

theorem formatOf_eq_R {op : BitVec 6} : formatOf op = .R ↔ op = 0 := by revert op; decide

theorem formatOf_eq_J {op : BitVec 6} : formatOf op = .J ↔ op = 2 ∨ op = 3 := by revert op; decide

theorem formatOf_eq_I {op : BitVec 6} : formatOf op = .I ↔ op ≠ 0 ∧ op ≠ 2 ∧ op ≠ 3 := by revert op; decide

/-- Under the register-format mask a register-format word shows its function code alone. -/
theorem encodeR_masked (rs rt rd shamt : BitVec 5) (funct : BitVec 6) :
    encodeR rs rt rd shamt funct &&& 0xFC00003F#32 = funct.setWidth 32 := by
  apply BitVec.eq_of_getLsbD_eq
  intro k hk
  unfold encodeR
  interval_cases k <;> simp <;> grind

/-- Under the opcode mask a jump word shows its opcode alone. -/
theorem encodeJ_masked (op : BitVec 6) (target26 : BitVec 26) :
    encodeJ op target26 &&& 0xFC000000#32 = op.setWidth 32 <<< 26 := by
  apply BitVec.eq_of_getLsbD_eq
  intro k hk
  unfold encodeJ
  interval_cases k <;> simp <;> grind

/-- Under the opcode mask an immediate-format word shows its opcode alone. -/
theorem encodeI_masked (op : BitVec 6) (rs rt : BitVec 5) (imm : BitVec 16) :
    encodeI op rs rt imm &&& 0xFC000000#32 = op.setWidth 32 <<< 26 := by
  apply BitVec.eq_of_getLsbD_eq
  intro k hk
  unfold encodeI
  interval_cases k <;> simp <;> grind

end Sys2Proof

namespace Sys2Proof.Machine

/-- `Decode` takes its bits where the slicer takes them. -/
theorem bitsAt_eq (w : Word) (lo n : Nat) : bitsAt w lo n = (w.extractLsb' lo n).toNat := by
  simp [bitsAt, BitVec.extractLsb'_toNat, Nat.shiftRight_eq_div_pow]

end Sys2Proof.Machine
end

