-- ==== Sys2Proof/Laws/Operands.lean ====
section
/-! SUPPORT. The ROM read, the jump target and the number renderers, each by its own small lemmas. -/

namespace Sys2Proof.Machine

/-! ### The ROM -/

/-- A ROM read is the entry at its index. -/
theorem getElem_toList_eq_romRead (rom : Rom) (i : RegIdx) : (romNames rom).toList[i.toNat]? = some (romRead rom i) := by
  simp [romRead, Vector.get, Vector.toList]

@[simp] theorem romRead_zero (rom : Rom) : romRead rom 0 = "zero".toList := rfl
@[simp] theorem romRead_three (rom : Rom) : romRead rom 3 = "v1".toList := rfl
@[simp] theorem romRead_four (rom : Rom) : romRead rom 4 = "a0".toList := rfl
@[simp] theorem romRead_five (rom : Rom) : romRead rom 5 = "a1".toList := rfl
@[simp] theorem romRead_thirtyOne (rom : Rom) : romRead rom 31 = "ra".toList := rfl

@[simp] theorem installNames_entry1 (names : RegNames) : (installNames names).entry1 = names[1] := rfl
@[simp] theorem installNames_entry2 (names : RegNames) : (installNames names).entry2 = names[2] := rfl

/-- Every ROM comes from some `REG_NAMES`, its own entries. -/
@[simp] theorem installNames_romNames (rom : Rom) : installNames (romNames rom) = rom := by
  obtain ⟨e1, e2, es⟩ := rom
  simp only [installNames, romNames, Rom.mk.injEq]
  refine ⟨rfl, rfl, ?_⟩
  ext1 k hk
  interval_cases k <;> rfl

/-! ### The operands -/

/-- The jump target as a concatenation: the region of `pc`, the field, two zero bits (30_encoding.md R68). -/
theorem jumpTarget_eq_concat (target26 : BitVec 26) (pc : Word) :
    jumpTarget target26 pc = pc.extractLsb' 28 4 ++ target26 ++ (0 : BitVec 2) := by
  unfold jumpTarget
  apply BitVec.eq_of_getLsbD_eq
  intro k hk
  interval_cases k <;> simp <;> grind

/-- The signed reading is Lean's. -/
theorem s16_eq_toInt (v : BitVec 16) : s16 v = v.toInt := by
  unfold s16
  rw [BitVec.toInt_eq_msb_cond, BitVec.msb_eq_getLsbD_last]
  split <;> simp_all

theorem digits_of_lt {base n : Nat} (fuel : Nat) (h : n < base) : digits base (fuel + 1) n = [digitChar n] := by
  simp [digits, h]

theorem digits_of_le {base n : Nat} (fuel : Nat) (h : base ≤ n) :
    digits base (fuel + 1) n = digits base fuel (n / base) ++ [digitChar (n % base)] := by
  simp [digits, Nat.not_lt.2 h]

theorem digitValue_digitChar {n : Nat} (h : n < 16) : digitValue (digitChar n) = n := by
  interval_cases n <;> decide

theorem digitChar_eq_zero_iff {n : Nat} (h : n < 16) : digitChar n = '0' ↔ n = 0 := by
  interval_cases n <;> decide

/-- Every id names its mnemonic. -/
theorem mnemonicOfId_id (m : Mnemonic) : mnemonicOfId m.id = some m := by cases m <;> decide

end Sys2Proof.Machine
end

