-- ==== Sys2Proof/Laws/State.lean ====
section
/-! SUPPORT. Each field of the state after each update. -/

namespace Sys2Proof.Machine

/-! ### Driving the outputs -/

@[simp] theorem emit_rom (d : Decoded) (word : Word) (s : State) : (emit d word s).rom = s.rom := rfl
@[simp] theorem emit_w (d : Decoded) (word : Word) (s : State) : (emit d word s).w = s.w := rfl
@[simp] theorem emit_pc (d : Decoded) (word : Word) (s : State) : (emit d word s).pc = s.pc := rfl
@[simp] theorem emit_d (d : Decoded) (word : Word) (s : State) : (emit d word s).d = d := rfl
@[simp] theorem emit_line (d : Decoded) (word : Word) (s : State) : (emit d word s).line = render s.rom d := rfl
@[simp] theorem emit_signals (d : Decoded) (word : Word) (s : State) : (emit d word s).signals = signalsOf d word := rfl
@[simp] theorem emit_inputs (d : Decoded) (word : Word) (s : State) : (emit d word s).inputs = s.inputs := rfl
@[simp] theorem emit_listing (d : Decoded) (word : Word) (s : State) : (emit d word s).listing = s.listing ++ [render s.rom d] := rfl

/-- Driving the outputs is one decode's change of the state. -/
theorem emit_eq_afterDecode (d : Decoded) (word : Word) (s : State) :
    emit d word s = afterDecode s d (render s.rom d) (signalsOf d word) := rfl

@[simp] theorem afterDecode_rom (d : Decoded) (line : Text) (g : Signals) (s : State) : (afterDecode s d line g).rom = s.rom := rfl
@[simp] theorem afterDecode_w (d : Decoded) (line : Text) (g : Signals) (s : State) : (afterDecode s d line g).w = s.w := rfl
@[simp] theorem afterDecode_pc (d : Decoded) (line : Text) (g : Signals) (s : State) : (afterDecode s d line g).pc = s.pc := rfl
@[simp] theorem afterDecode_d (d : Decoded) (line : Text) (g : Signals) (s : State) : (afterDecode s d line g).d = d := rfl
@[simp] theorem afterDecode_line (d : Decoded) (line : Text) (g : Signals) (s : State) : (afterDecode s d line g).line = line := rfl
@[simp] theorem afterDecode_signals (d : Decoded) (line : Text) (g : Signals) (s : State) : (afterDecode s d line g).signals = g := rfl
@[simp] theorem afterDecode_inputs (d : Decoded) (line : Text) (g : Signals) (s : State) : (afterDecode s d line g).inputs = s.inputs := rfl
@[simp] theorem afterDecode_listing (d : Decoded) (line : Text) (g : Signals) (s : State) : (afterDecode s d line g).listing = s.listing ++ [line] := rfl

/-! ### The caller's side -/

@[simp] theorem onPorts_rom (w pc : Word) (rest : List Input) (s : State) : (onPorts s w pc rest).rom = s.rom := rfl
@[simp] theorem onPorts_w (w pc : Word) (rest : List Input) (s : State) : (onPorts s w pc rest).w = w := rfl
@[simp] theorem onPorts_pc (w pc : Word) (rest : List Input) (s : State) : (onPorts s w pc rest).pc = pc := rfl
@[simp] theorem onPorts_d (w pc : Word) (rest : List Input) (s : State) : (onPorts s w pc rest).d = s.d := rfl
@[simp] theorem onPorts_line (w pc : Word) (rest : List Input) (s : State) : (onPorts s w pc rest).line = s.line := rfl
@[simp] theorem onPorts_signals (w pc : Word) (rest : List Input) (s : State) : (onPorts s w pc rest).signals = s.signals := rfl
@[simp] theorem onPorts_inputs (w pc : Word) (rest : List Input) (s : State) : (onPorts s w pc rest).inputs = rest := rfl
@[simp] theorem onPorts_listing (w pc : Word) (rest : List Input) (s : State) : (onPorts s w pc rest).listing = s.listing := rfl

@[simp] theorem loadInputs_rom (l : List Input) (s : State) : (loadInputs l s).rom = s.rom := rfl
@[simp] theorem loadInputs_w (l : List Input) (s : State) : (loadInputs l s).w = s.w := rfl
@[simp] theorem loadInputs_pc (l : List Input) (s : State) : (loadInputs l s).pc = s.pc := rfl
@[simp] theorem loadInputs_d (l : List Input) (s : State) : (loadInputs l s).d = s.d := rfl
@[simp] theorem loadInputs_line (l : List Input) (s : State) : (loadInputs l s).line = s.line := rfl
@[simp] theorem loadInputs_signals (l : List Input) (s : State) : (loadInputs l s).signals = s.signals := rfl
@[simp] theorem loadInputs_inputs (l : List Input) (s : State) : (loadInputs l s).inputs = l := rfl
@[simp] theorem loadInputs_listing (l : List Input) (s : State) : (loadInputs l s).listing = s.listing := rfl

theorem presentNext_of_nil {s : State} (h : s.inputs = []) : presentNext s = none := by
  simp [presentNext, h]

theorem presentNext_of_cons {s : State} {w pc : Word} {rest : List Input} (h : s.inputs = ⟨w, pc⟩ :: rest) :
    presentNext s = some (onPorts s w pc rest) := by
  simp [presentNext, onPorts, h]

/-- Placing a word makes it the next one presented; its pc is that of the pair it replaces, or the port's. -/
theorem placeWord_inputs (word : Word) (s : State) :
    (placeWord word s).inputs = ⟨word, (s.inputs.head?.map Input.pc).getD s.pc⟩ :: s.inputs.tail := by
  unfold placeWord
  split <;> simp [*]

end Sys2Proof.Machine
end

