-- ==== Sys2Proof/Laws/Ops.lean ====
section
/-! SUPPORT. Everything the meanings and the step can do, said once. -/

namespace Sys2Proof

/-- The record an instruction gives when its address is `pc`. -/
def Instr.recordAt (pc : Word) : Instr → Decoded
  | .sll rd rs _ shamt => .shift .sll rd rs shamt
  | .srl rd rs _ shamt => .shift .srl rd rs shamt
  | .sra rd _ _ shamt => .shift .sra rd rd shamt
  | .jr rd rs rt _ => .r3 .jr rd rs rt
  | .jalr rd rs rt _ => .r3 .jalr rd rs rt
  | .mfhi rd rs rt _ => .r3 .mfhi rd rs rt
  | .mthi rd rs rt _ => .r3 .mthi rd rs rt
  | .mflo rd rs rt _ => .r3 .mflo rd rs rt
  | .mtlo rd rs rt _ => .r3 .mtlo rd rs rt
  | .mult rd rs rt _ => .r3 .mult rd rs rt
  | .multu rd rs rt _ => .r3 .multu rd rs rt
  | .div rd rs rt _ => .r3 .div rd rs rt
  | .divu rd rs rt _ => .r3 .divu rd rs rt
  | .add rd rs rt _ => .r3 .add rd rs rt
  | .addu rd rs rt _ => .r3 .addu rd rs rt
  | .sub rd rs rt _ => .r3 .sub rd rs rt
  | .subu rd rs rt _ => .r3 .subu rd rs rt
  | .and rd rs rt _ => .r3 .and rd rs rt
  | .or rd rs rt _ => .r3 .or rd rs rt
  | .xor rd rs rt _ => .r3 .xor rd rs rt
  | .nor rd rs rt _ => .r3 .nor rd rs rt
  | .slt rd rs rt _ => .r3 .slt rd rs rt
  | .sltu rd rs rt _ => .r3 .sltu rd rs rt
  | .j target26 => .jump .j (Machine.jumpTarget target26 pc)
  | .jal target26 => .jump .jal (Machine.jumpTarget target26 pc)
  | .beq rt rs imm => .immX .beq rt rs imm
  | .bne rt rs imm => .immX .bne rt rs imm
  | .blez rt rs imm => .immX .blez rt rs imm
  | .bgtz rt rs imm => .immX .bgtz rt rs imm
  | .addi rt rs imm => .immS .addi rt rs imm
  | .addiu rt rs imm => .immX .addiu rt rs imm
  | .slti rt rs imm => .immS .slti rt rs imm
  | .sltiu rt rs imm => .immX .sltiu rt rs imm
  | .andi rt rs imm => .immX .andi rt rs imm
  | .ori rt rs imm => .immX .ori rt rs imm
  | .lui rt rs imm => .immX .lui rt rs imm
  | .lb rt rs imm => .immX .lb rt rs imm
  | .lw rt rs imm => .immX .lw rt rs imm
  | .lbu rt rs imm => .immX .lbu rt rs imm
  | .lhu rt rs imm => .immX .lhu rt rs imm
  | .sb rt rs imm => .immX .sb rt rs imm
  | .sh rt rs imm => .immX .sh rt rs imm
  | .sw rt rs imm => .immX .sw rt rs imm

end Sys2Proof

namespace Sys2Proof.Machine

/-- Every instruction drives the outputs with its record and its word, and does nothing else. -/
theorem exec_eq_emit (i : Instr) (s : State) : exec i s = .next (emit (i.recordAt s.pc) (encode i) s) := by
  cases i <;> rfl

/-- Decoding what stands on the ports drives the outputs with the instruction's record, or with the invalid one. -/
theorem decodePorts_eq_emit (s : State) :
    decodePorts s = match decode s.w with
      | .ok i    => .next (emit (i.recordAt s.pc) (encode i) s)
      | .error _ => .next (emit (.invalid s.w) s.w s) := by
  cases h : decode s.w <;> simp [decodePorts, h, exec_eq_emit, reportInvalid]

/-- A step presents a pair and decodes the ports, or changes nothing. -/
theorem step_cases (s : State) :
    (s.inputs = [] ∧ step s = .next s)
      ∨ ∃ w pc rest, s.inputs = ⟨w, pc⟩ :: rest ∧ step s = decodePorts (onPorts s w pc rest) := by
  rcases h : s.inputs with _ | ⟨⟨w, pc⟩, rest⟩
  · exact .inl ⟨rfl, by simp [step, presentNext_of_nil h, idle]⟩
  · exact .inr ⟨w, pc, rest, rfl, by simp [step, presentNext_of_cons h]⟩

end Sys2Proof.Machine
end

