-- ==== Sys2Proof/Laws/PerInstr.lean ====
section
/-! SUPPORT. One lemma per instruction. Family TableMatch: the encoded word matches its row of the opcode table. -/

namespace Sys2Proof.Laws.TableMatch

open Sys2Proof Sys2Proof.Machine

/-- The word of `i` shows, under the mask of its row of spec/opcode_table.json, the match of that row. -/
def Statement (i : Instr) : Prop := encode i &&& tableMask i.mnemonic = tableMatch i.mnemonic

theorem sll (rd rs rt shamt : BitVec 5) : Statement (.sll rd rs rt shamt) :=
  (encodeR_masked rs rt rd shamt _).trans rfl

theorem srl (rd rs rt shamt : BitVec 5) : Statement (.srl rd rs rt shamt) :=
  (encodeR_masked rs rt rd shamt _).trans rfl

theorem sra (rd rs rt shamt : BitVec 5) : Statement (.sra rd rs rt shamt) :=
  (encodeR_masked rs rt rd shamt _).trans rfl

theorem jr (rd rs rt shamt : BitVec 5) : Statement (.jr rd rs rt shamt) :=
  (encodeR_masked rs rt rd shamt _).trans rfl

theorem jalr (rd rs rt shamt : BitVec 5) : Statement (.jalr rd rs rt shamt) :=
  (encodeR_masked rs rt rd shamt _).trans rfl

theorem mfhi (rd rs rt shamt : BitVec 5) : Statement (.mfhi rd rs rt shamt) :=
  (encodeR_masked rs rt rd shamt _).trans rfl

theorem mthi (rd rs rt shamt : BitVec 5) : Statement (.mthi rd rs rt shamt) :=
  (encodeR_masked rs rt rd shamt _).trans rfl

theorem mflo (rd rs rt shamt : BitVec 5) : Statement (.mflo rd rs rt shamt) :=
  (encodeR_masked rs rt rd shamt _).trans rfl

theorem mtlo (rd rs rt shamt : BitVec 5) : Statement (.mtlo rd rs rt shamt) :=
  (encodeR_masked rs rt rd shamt _).trans rfl

theorem mult (rd rs rt shamt : BitVec 5) : Statement (.mult rd rs rt shamt) :=
  (encodeR_masked rs rt rd shamt _).trans rfl

theorem multu (rd rs rt shamt : BitVec 5) : Statement (.multu rd rs rt shamt) :=
  (encodeR_masked rs rt rd shamt _).trans rfl

theorem div (rd rs rt shamt : BitVec 5) : Statement (.div rd rs rt shamt) :=
  (encodeR_masked rs rt rd shamt _).trans rfl

theorem divu (rd rs rt shamt : BitVec 5) : Statement (.divu rd rs rt shamt) :=
  (encodeR_masked rs rt rd shamt _).trans rfl

theorem add (rd rs rt shamt : BitVec 5) : Statement (.add rd rs rt shamt) :=
  (encodeR_masked rs rt rd shamt _).trans rfl

theorem addu (rd rs rt shamt : BitVec 5) : Statement (.addu rd rs rt shamt) :=
  (encodeR_masked rs rt rd shamt _).trans rfl

theorem sub (rd rs rt shamt : BitVec 5) : Statement (.sub rd rs rt shamt) :=
  (encodeR_masked rs rt rd shamt _).trans rfl

theorem subu (rd rs rt shamt : BitVec 5) : Statement (.subu rd rs rt shamt) :=
  (encodeR_masked rs rt rd shamt _).trans rfl

theorem and (rd rs rt shamt : BitVec 5) : Statement (.and rd rs rt shamt) :=
  (encodeR_masked rs rt rd shamt _).trans rfl

theorem or (rd rs rt shamt : BitVec 5) : Statement (.or rd rs rt shamt) :=
  (encodeR_masked rs rt rd shamt _).trans rfl

theorem xor (rd rs rt shamt : BitVec 5) : Statement (.xor rd rs rt shamt) :=
  (encodeR_masked rs rt rd shamt _).trans rfl

theorem nor (rd rs rt shamt : BitVec 5) : Statement (.nor rd rs rt shamt) :=
  (encodeR_masked rs rt rd shamt _).trans rfl

theorem slt (rd rs rt shamt : BitVec 5) : Statement (.slt rd rs rt shamt) :=
  (encodeR_masked rs rt rd shamt _).trans rfl

theorem sltu (rd rs rt shamt : BitVec 5) : Statement (.sltu rd rs rt shamt) :=
  (encodeR_masked rs rt rd shamt _).trans rfl

theorem j (target26 : BitVec 26) : Statement (.j target26) :=
  (encodeJ_masked _ target26).trans rfl

theorem jal (target26 : BitVec 26) : Statement (.jal target26) :=
  (encodeJ_masked _ target26).trans rfl

theorem beq (rt rs : BitVec 5) (imm : BitVec 16) : Statement (.beq rt rs imm) :=
  (encodeI_masked _ rs rt imm).trans rfl

theorem bne (rt rs : BitVec 5) (imm : BitVec 16) : Statement (.bne rt rs imm) :=
  (encodeI_masked _ rs rt imm).trans rfl

theorem blez (rt rs : BitVec 5) (imm : BitVec 16) : Statement (.blez rt rs imm) :=
  (encodeI_masked _ rs rt imm).trans rfl

theorem bgtz (rt rs : BitVec 5) (imm : BitVec 16) : Statement (.bgtz rt rs imm) :=
  (encodeI_masked _ rs rt imm).trans rfl

theorem addi (rt rs : BitVec 5) (imm : BitVec 16) : Statement (.addi rt rs imm) :=
  (encodeI_masked _ rs rt imm).trans rfl

theorem addiu (rt rs : BitVec 5) (imm : BitVec 16) : Statement (.addiu rt rs imm) :=
  (encodeI_masked _ rs rt imm).trans rfl

theorem slti (rt rs : BitVec 5) (imm : BitVec 16) : Statement (.slti rt rs imm) :=
  (encodeI_masked _ rs rt imm).trans rfl

theorem sltiu (rt rs : BitVec 5) (imm : BitVec 16) : Statement (.sltiu rt rs imm) :=
  (encodeI_masked _ rs rt imm).trans rfl

theorem andi (rt rs : BitVec 5) (imm : BitVec 16) : Statement (.andi rt rs imm) :=
  (encodeI_masked _ rs rt imm).trans rfl

theorem ori (rt rs : BitVec 5) (imm : BitVec 16) : Statement (.ori rt rs imm) :=
  (encodeI_masked _ rs rt imm).trans rfl

theorem lui (rt rs : BitVec 5) (imm : BitVec 16) : Statement (.lui rt rs imm) :=
  (encodeI_masked _ rs rt imm).trans rfl

theorem lb (rt rs : BitVec 5) (imm : BitVec 16) : Statement (.lb rt rs imm) :=
  (encodeI_masked _ rs rt imm).trans rfl

theorem lw (rt rs : BitVec 5) (imm : BitVec 16) : Statement (.lw rt rs imm) :=
  (encodeI_masked _ rs rt imm).trans rfl

theorem lbu (rt rs : BitVec 5) (imm : BitVec 16) : Statement (.lbu rt rs imm) :=
  (encodeI_masked _ rs rt imm).trans rfl

theorem lhu (rt rs : BitVec 5) (imm : BitVec 16) : Statement (.lhu rt rs imm) :=
  (encodeI_masked _ rs rt imm).trans rfl

theorem sb (rt rs : BitVec 5) (imm : BitVec 16) : Statement (.sb rt rs imm) :=
  (encodeI_masked _ rs rt imm).trans rfl

theorem sh (rt rs : BitVec 5) (imm : BitVec 16) : Statement (.sh rt rs imm) :=
  (encodeI_masked _ rs rt imm).trans rfl

theorem sw (rt rs : BitVec 5) (imm : BitVec 16) : Statement (.sw rt rs imm) :=
  (encodeI_masked _ rs rt imm).trans rfl

end Sys2Proof.Laws.TableMatch
end

