-- ==== Sys2Proof/Tests/Slice0.lean ====
section
/-! SUPPORT. The model's own tests: the checks of WellFormed, one written-out word and one vector of spec/95_test_vectors.md for
each instruction, and for each statement with hypotheses a witness that meets them. -/

namespace Sys2Proof.Tests

open Sys2Proof Sys2Proof.Machine

/-- The machine after reset, with a caller about to present `l`. -/
def presenting (l : List Input) : State := loadInputs l State.reset

/-- The line one step gives for a word at an address. -/
def lineOf (w pc : Word) : Text :=
  match step (presenting [⟨w, pc⟩]) with
  | .next t => t.line
  | _ => []

/-- The line and the signals one step gives. -/
def outputsOf (w pc : Word) : Text × Signals :=
  match step (presenting [⟨w, pc⟩]) with
  | .next t => (t.line, t.signals)
  | _ => ([], State.reset.signals)

/-! ### WellFormed refuses -/

theorem smoke_r3_refuses_shift_mnemonic : (Decoded.r3 .sll 3 4 5).wellFormed = false := by decide
theorem smoke_shift_refuses_add : (Decoded.shift .add 3 4 2).wellFormed = false := by decide
theorem smoke_sra_refuses_two_registers : (Decoded.shift .sra 3 4 2).wellFormed = false := by decide
theorem smoke_jump_refuses_beq : (Decoded.jump .beq 0x40).wellFormed = false := by decide
theorem smoke_jump_refuses_unaligned_target : (Decoded.jump .j 0x41).wellFormed = false := by decide
theorem smoke_immS_refuses_addiu : (Decoded.immS .addiu 3 4 5).wellFormed = false := by decide
theorem smoke_immX_refuses_addi : (Decoded.immX .addi 3 4 5).wellFormed = false := by decide
theorem smoke_invalid_refuses_valid_word : (Decoded.invalid 0x00851820).wellFormed = false := by decide
theorem smoke_rom_refuses_other_zero :
    romHoldsFixedNames (defaultRegNames.set 0 ['r', '0']) = false := by decide
theorem smoke_rom_refuses_other_v1 : romHoldsFixedNames (defaultRegNames.set 3 ['r', '3']) = false := by decide
theorem smoke_rom_refuses_other_a0 : romHoldsFixedNames (defaultRegNames.set 4 ['r', '4']) = false := by decide
theorem smoke_rom_refuses_other_a1 : romHoldsFixedNames (defaultRegNames.set 5 ['r', '5']) = false := by decide
theorem smoke_rom_refuses_other_ra : romHoldsFixedNames (defaultRegNames.set 31 ['r', 'x']) = false := by decide
theorem smoke_names_refuse_comma : romNamesDistinctAndPlain (defaultRegNames.set 8 ['t', ',']) = false := by decide
theorem smoke_names_refuse_space : romNamesDistinctAndPlain (defaultRegNames.set 8 ['t', ' ']) = false := by decide
theorem smoke_names_refuse_newline : romNamesDistinctAndPlain (defaultRegNames.set 8 ['t', '\n']) = false := by decide
theorem smoke_names_refuse_repeat : romNamesDistinctAndPlain (defaultRegNames.set 8 ['t', '1']) = false := by decide

/-- R21: a `REG_NAMES` with another name at entry 3 leaves `v1` there, and its own name stands at entry 8. -/
theorem test_fixed_name_whatever_given :
    romRead (installNames ((defaultRegNames.set 3 ['x']).set 8 ['y'])) 3 = "v1".toList
      ∧ romRead (installNames ((defaultRegNames.set 3 ['x']).set 8 ['y'])) 8 = "y".toList := by decide

/-- R22: the default is taken whole, so entry 30 reads `fp`. -/
theorem test_default_taken_whole :
    romNames (installNames defaultRegNames) = defaultRegNames ∧ romRead State.reset.rom 30 = "fp".toList := by decide

/-! ### Decoding, by words written out from the encoding patterns of the opcode table
(rs = 20, rt = 11, rd = 7, shamt = 18; imm = 0x80F1) -/

/-- R152. -/
theorem test_decode_sll : decode 0b000000_10100_01011_00111_10010_000000 = .ok (.sll 7 20 11 18) := by decide

/-- R153. -/
theorem test_decode_srl : decode 0b000000_10100_01011_00111_10010_000010 = .ok (.srl 7 20 11 18) := by decide

/-- R154. -/
theorem test_decode_sra : decode 0b000000_10100_01011_00111_10010_000011 = .ok (.sra 7 20 11 18) := by decide

/-- R138. -/
theorem test_decode_jr : decode 0b000000_10100_01011_00111_10010_001000 = .ok (.jr 7 20 11 18) := by decide

/-- R137. -/
theorem test_decode_jalr : decode 0b000000_10100_01011_00111_10010_001001 = .ok (.jalr 7 20 11 18) := by decide

/-- R139. -/
theorem test_decode_mfhi : decode 0b000000_10100_01011_00111_10010_010000 = .ok (.mfhi 7 20 11 18) := by decide

/-- R140. -/
theorem test_decode_mthi : decode 0b000000_10100_01011_00111_10010_010001 = .ok (.mthi 7 20 11 18) := by decide

/-- R141. -/
theorem test_decode_mflo : decode 0b000000_10100_01011_00111_10010_010010 = .ok (.mflo 7 20 11 18) := by decide

/-- R142. -/
theorem test_decode_mtlo : decode 0b000000_10100_01011_00111_10010_010011 = .ok (.mtlo 7 20 11 18) := by decide

/-- R143. -/
theorem test_decode_mult : decode 0b000000_10100_01011_00111_10010_011000 = .ok (.mult 7 20 11 18) := by decide

/-- R144. -/
theorem test_decode_multu : decode 0b000000_10100_01011_00111_10010_011001 = .ok (.multu 7 20 11 18) := by decide

/-- R135. -/
theorem test_decode_div : decode 0b000000_10100_01011_00111_10010_011010 = .ok (.div 7 20 11 18) := by decide

/-- R136. -/
theorem test_decode_divu : decode 0b000000_10100_01011_00111_10010_011011 = .ok (.divu 7 20 11 18) := by decide

/-- R132. -/
theorem test_decode_add : decode 0b000000_10100_01011_00111_10010_100000 = .ok (.add 7 20 11 18) := by decide

/-- R133. -/
theorem test_decode_addu : decode 0b000000_10100_01011_00111_10010_100001 = .ok (.addu 7 20 11 18) := by decide

/-- R150. -/
theorem test_decode_sub : decode 0b000000_10100_01011_00111_10010_100010 = .ok (.sub 7 20 11 18) := by decide

/-- R151. -/
theorem test_decode_subu : decode 0b000000_10100_01011_00111_10010_100011 = .ok (.subu 7 20 11 18) := by decide

/-- R134. -/
theorem test_decode_and : decode 0b000000_10100_01011_00111_10010_100100 = .ok (.and 7 20 11 18) := by decide

/-- R147. -/
theorem test_decode_or : decode 0b000000_10100_01011_00111_10010_100101 = .ok (.or 7 20 11 18) := by decide

/-- R146. -/
theorem test_decode_xor : decode 0b000000_10100_01011_00111_10010_100110 = .ok (.xor 7 20 11 18) := by decide

/-- R145. -/
theorem test_decode_nor : decode 0b000000_10100_01011_00111_10010_100111 = .ok (.nor 7 20 11 18) := by decide

/-- R148. -/
theorem test_decode_slt : decode 0b000000_10100_01011_00111_10010_101010 = .ok (.slt 7 20 11 18) := by decide

/-- R149. -/
theorem test_decode_sltu : decode 0b000000_10100_01011_00111_10010_101011 = .ok (.sltu 7 20 11 18) := by decide

/-- R171. -/
theorem test_decode_j : decode 0b000010_10011001100110011001100110 = .ok (.j 0x2666666) := by decide

/-- R172. -/
theorem test_decode_jal : decode 0b000011_10011001100110011001100110 = .ok (.jal 0x2666666) := by decide

/-- R187. -/
theorem test_decode_beq : decode 0b000100_10100_01011_1000000011110001 = .ok (.beq 11 20 0x80F1) := by decide

/-- R189. -/
theorem test_decode_bne : decode 0b000101_10100_01011_1000000011110001 = .ok (.bne 11 20 0x80F1) := by decide

/-- R188. -/
theorem test_decode_blez : decode 0b000110_10100_01011_1000000011110001 = .ok (.blez 11 20 0x80F1) := by decide

/-- R190. -/
theorem test_decode_bgtz : decode 0b000111_10100_01011_1000000011110001 = .ok (.bgtz 11 20 0x80F1) := by decide

/-- R183. -/
theorem test_decode_addi : decode 0b001000_10100_01011_1000000011110001 = .ok (.addi 11 20 0x80F1) := by decide

/-- R185. -/
theorem test_decode_addiu : decode 0b001001_10100_01011_1000000011110001 = .ok (.addiu 11 20 0x80F1) := by decide

/-- R184. -/
theorem test_decode_slti : decode 0b001010_10100_01011_1000000011110001 = .ok (.slti 11 20 0x80F1) := by decide

/-- R199. -/
theorem test_decode_sltiu : decode 0b001011_10100_01011_1000000011110001 = .ok (.sltiu 11 20 0x80F1) := by decide

/-- R186. -/
theorem test_decode_andi : decode 0b001100_10100_01011_1000000011110001 = .ok (.andi 11 20 0x80F1) := by decide

/-- R196. -/
theorem test_decode_ori : decode 0b001101_10100_01011_1000000011110001 = .ok (.ori 11 20 0x80F1) := by decide

/-- R194. -/
theorem test_decode_lui : decode 0b001111_10100_01011_1000000011110001 = .ok (.lui 11 20 0x80F1) := by decide

/-- R191. -/
theorem test_decode_lb : decode 0b100000_10100_01011_1000000011110001 = .ok (.lb 11 20 0x80F1) := by decide

/-- R195. -/
theorem test_decode_lw : decode 0b100011_10100_01011_1000000011110001 = .ok (.lw 11 20 0x80F1) := by decide

/-- R192. -/
theorem test_decode_lbu : decode 0b100100_10100_01011_1000000011110001 = .ok (.lbu 11 20 0x80F1) := by decide

/-- R193. -/
theorem test_decode_lhu : decode 0b100101_10100_01011_1000000011110001 = .ok (.lhu 11 20 0x80F1) := by decide

/-- R197. -/
theorem test_decode_sb : decode 0b101000_10100_01011_1000000011110001 = .ok (.sb 11 20 0x80F1) := by decide

/-- R198. -/
theorem test_decode_sh : decode 0b101001_10100_01011_1000000011110001 = .ok (.sh 11 20 0x80F1) := by decide

/-- R200. -/
theorem test_decode_sw : decode 0b101011_10100_01011_1000000011110001 = .ok (.sw 11 20 0x80F1) := by decide

/-- R155. -/
theorem test_decode_syscall_code :
    decode 0b000000_00000_00000_00000_00000_001100 = .error .unrecognizedFunctionCode := by decide

/-- R201, 90_conflicts.md C1. -/
theorem test_decode_opcode_0E : decode 0b001110_01000_01000_0000000000000001 = .error .unrecognizedOpcode := by decide

/-! ### Lines and signals, from spec/95_test_vectors.md -/

/-- SH-5. -/
theorem test_line_sll : lineOf 0x03E51FC0 0 = "sll $v1, $ra, 31\n".toList := by decide

/-- SH-6. -/
theorem test_line_srl : lineOf 0x03E51FC2 0 = "srl $v1, $ra, 31\n".toList := by decide

/-- SH-4. -/
theorem test_line_sra : lineOf 0x03E51883 0 = "sra $v1, $v1, 2\n".toList := by decide

/-- R3-23. -/
theorem test_line_jr : lineOf 0x03E00008 0 = "jr $zero, $ra, $zero\n".toList := by decide

/-- R3-24. -/
theorem test_line_jalr : lineOf 0x0040F809 0 = "jalr $ra, $v0, $zero\n".toList := by decide

/-- R3-3. -/
theorem test_line_mfhi : lineOf 0x00851810 0 = "mfhi $v1, $a0, $a1\n".toList := by decide

/-- R3-4. -/
theorem test_line_mthi : lineOf 0x00851811 0 = "mthi $v1, $a0, $a1\n".toList := by decide

/-- R3-25. -/
theorem test_line_mflo : lineOf 0x00004012 0 = "mflo $t0, $zero, $zero\n".toList := by decide

/-- R3-26. -/
theorem test_line_mtlo : lineOf 0x01000013 0 = "mtlo $zero, $t0, $zero\n".toList := by decide

/-- R3-7. -/
theorem test_line_mult : lineOf 0x00851818 0 = "mult $v1, $a0, $a1\n".toList := by decide

/-- R3-8. -/
theorem test_line_multu : lineOf 0x00851819 0 = "multu $v1, $a0, $a1\n".toList := by decide

/-- R3-27. -/
theorem test_line_div : lineOf 0x0085001A 0 = "div $zero, $a0, $a1\n".toList := by decide

/-- R3-10. -/
theorem test_line_divu : lineOf 0x0085181B 0 = "divu $v1, $a0, $a1\n".toList := by decide

/-- R3-12. -/
theorem test_line_addu : lineOf 0x00851821 0 = "addu $v1, $a0, $a1\n".toList := by decide

/-- R3-13. -/
theorem test_line_sub : lineOf 0x00851822 0 = "sub $v1, $a0, $a1\n".toList := by decide

/-- R3-14. -/
theorem test_line_subu : lineOf 0x00851823 0 = "subu $v1, $a0, $a1\n".toList := by decide

/-- R3-15. -/
theorem test_line_and : lineOf 0x00851824 0 = "and $v1, $a0, $a1\n".toList := by decide

/-- R3-16. -/
theorem test_line_or : lineOf 0x00851825 0 = "or $v1, $a0, $a1\n".toList := by decide

/-- R3-17. -/
theorem test_line_xor : lineOf 0x00851826 0 = "xor $v1, $a0, $a1\n".toList := by decide

/-- R3-30. -/
theorem test_line_nor : lineOf 0x03FFFFE7 0 = "nor $ra, $ra, $ra\n".toList := by decide

/-- R3-19. -/
theorem test_line_slt : lineOf 0x0085182A 0 = "slt $v1, $a0, $a1\n".toList := by decide

/-- R3-20. -/
theorem test_line_sltu : lineOf 0x0085182B 0 = "sltu $v1, $a0, $a1\n".toList := by decide

/-- J-10. -/
theorem test_line_jal : lineOf 0x0C000001 0xA0000003 = "jal 0xa0000004\n".toList := by decide

/-- IX-24. -/
theorem test_line_beq : lineOf 0x10A4000F 0 = "beq $a0, $a1, 0xf\n".toList := by decide

/-- IX-23. -/
theorem test_line_bne : lineOf 0x1500FFFD 0 = "bne $zero, $t0, 0xfffd\n".toList := by decide

/-- IX-3. -/
theorem test_line_blez : lineOf 0x18830010 0 = "blez $v1, $a0, 0x10\n".toList := by decide

/-- IX-4. -/
theorem test_line_bgtz : lineOf 0x1C830010 0 = "bgtz $v1, $a0, 0x10\n".toList := by decide

/-- IX-5. -/
theorem test_line_addiu : lineOf 0x24830010 0 = "addiu $v1, $a0, 0x10\n".toList := by decide

/-- IS-6. -/
theorem test_line_slti : lineOf 0x28818000 0 = "slti $at, $a0, -32768\n".toList := by decide

/-- IX-19. -/
theorem test_line_sltiu : lineOf 0x2C818000 0 = "sltiu $at, $a0, 0x8000\n".toList := by decide

/-- IX-21. -/
theorem test_line_andi : lineOf 0x310800FF 0 = "andi $t0, $t0, 0xff\n".toList := by decide

/-- IX-22. -/
theorem test_line_ori : lineOf 0x3508F0F0 0 = "ori $t0, $t0, 0xf0f0\n".toList := by decide

/-- IX-20. -/
theorem test_line_lui : lineOf 0x3C011001 0 = "lui $at, $zero, 0x1001\n".toList := by decide

/-- IX-10. -/
theorem test_line_lb : lineOf 0x80830010 0 = "lb $v1, $a0, 0x10\n".toList := by decide

/-- IX-17. -/
theorem test_line_lw : lineOf 0x8C00FFFF 0 = "lw $zero, $zero, 0xffff\n".toList := by decide

/-- IX-12. -/
theorem test_line_lbu : lineOf 0x90830010 0 = "lbu $v1, $a0, 0x10\n".toList := by decide

/-- IX-13. -/
theorem test_line_lhu : lineOf 0x94830010 0 = "lhu $v1, $a0, 0x10\n".toList := by decide

/-- IX-14. -/
theorem test_line_sb : lineOf 0xA0830010 0 = "sb $v1, $a0, 0x10\n".toList := by decide

/-- IX-15. -/
theorem test_line_sh : lineOf 0xA4830010 0 = "sh $v1, $a0, 0x10\n".toList := by decide

/-- IX-16. -/
theorem test_line_sw : lineOf 0xAC830010 0 = "sw $v1, $a0, 0x10\n".toList := by decide

/-- S-1, line and signals. -/
theorem test_line_signals_add : outputsOf 0x00851820 0 = ("add $v1, $a0, $a1\n".toList,
    { fmt := 0, valid := 1, shape := 0, mnem := 13, slotA := 3, slotB := 4, slotC := 5,
      num := 0x00000000, word := 0x00851820 }) := by decide

/-- S-3, line and signals. -/
theorem test_line_signals_j : outputsOf 0x08000010 0x80000000 = ("j 0x80000040\n".toList,
    { fmt := 1, valid := 1, shape := 2, mnem := 23, slotA := 0, slotB := 0, slotC := 0,
      num := 0x80000040, word := 0x08000010 }) := by decide

/-- S-5, line and signals. -/
theorem test_line_signals_addi : outputsOf 0x2084FFFF 0 = ("addi $a0, $a0, -1\n".toList,
    { fmt := 2, valid := 1, shape := 3, mnem := 29, slotA := 4, slotB := 4, slotC := 4,
      num := 0x0000FFFF, word := 0x2084FFFF }) := by decide

/-- S-6, line and signals. -/
theorem test_line_signals_invalid : outputsOf 0xFC000000 0 = ("invalid instruction 0xfc000000\n".toList,
    { fmt := 2, valid := 0, shape := 5, mnem := 63, slotA := 0, slotB := 0, slotC := 0,
      num := 0xFC000000, word := 0xFC000000 }) := by decide

/-- R-INV-42. -/
theorem test_line_R_INV_42 : lineOf 0x0000000C 0 = "invalid instruction 0xc\n".toList := by decide

/-- R-INV-8. -/
theorem test_line_R_INV_8 : lineOf 0x0085180C 0 = "invalid instruction 0x85180c\n".toList := by decide

/-- R-INV-41. -/
theorem test_line_R_INV_41 : lineOf 0x0085183F 0 = "invalid instruction 0x85183f\n".toList := by decide

/-- I-INV-46. -/
theorem test_line_I_INV_46 : lineOf 0x04010000 0 = "invalid instruction 0x4010000\n".toList := by decide

/-- I-INV-47. -/
theorem test_line_I_INV_47 : lineOf 0x39080001 0 = "invalid instruction 0x39080001\n".toList := by decide

/-- I-INV-45. -/
theorem test_line_I_INV_45 : lineOf 0xFFFFFFFF 0 = "invalid instruction 0xffffffff\n".toList := by decide

/-- R3-29. -/
theorem test_line_R3_29 : lineOf 0xFC000020 0 = "invalid instruction 0xfc000020\n".toList := by decide

/-! ### The caller -/

/-- P3: the pcs across the region boundary. -/
theorem test_feed_P3 : feed 0x0FFFFFF8 [0x08000010, 0x00000000, 0x24820001] =
    [⟨0x08000010, 0x0FFFFFF8⟩, ⟨0x00000000, 0x0FFFFFFC⟩, ⟨0x24820001, 0x10000000⟩] := by decide

/-- 20_memory.md R42: one file, the two orders. -/
theorem test_assemble : assemble .big 0x00 0x85 0x18 0x20 = 0x00851820 ∧ assemble .little 0x20 0x18 0x85 0x00 = 0x00851820 := by
  decide

/-- The ids are 0 to 42 in the order of the table (R102). -/
theorem test_ids : [Mnemonic.sll.id, Mnemonic.jr.id, Mnemonic.add.id, Mnemonic.sltu.id, Mnemonic.j.id, Mnemonic.beq.id,
    Mnemonic.sw.id] = [0, 3, 13, 22, 23, 25, 42] := by decide

/-- The host's two questions, on one row. -/
theorem test_withFetchWord_runs :
    decodeTableWord 32 0x8C830010 = some (.lw 3 4 0x10)
      ∧ (match step (State.reset.withFetchWord 32 0x8C830010) with
          | .next t => t.line == "lw $v1, $a0, 0x10\n".toList
          | _ => false) = true := by decide

/-! ### Witnesses: each meets all hypotheses of the statement it names -/

/-- A caller about to present an `add` word and a `j` word. -/
def witness : State := presenting [⟨0x00851820, 0x00400000⟩, ⟨0x08000010, 0x00400004⟩]

/-- The machine with `w` and `pc` on its ports, nothing to present. -/
def portsAt (w pc : Word) : State := State.powerUp defaultRegNames w pc

/-- The same with another record on the output. -/
def dirtyAt (w pc : Word) : State := { portsAt w pc with d := .invalid 0x0000000C }

/-- A caller about to present an invalid word and an `add` word. -/
def witnessInvalid : State := presenting [⟨0x0000000C, 0x80000000⟩, ⟨0x00851820, 0x80000004⟩]

theorem witness_EncodeOfDecode : decode 0x03FFFFFF = .error .unrecognizedFunctionCode ∧ decode 0x03FFFFEB = .ok (.sltu 31 31 31 31) := by
  decide

theorem witness_StepRunsTheDecodedInstruction :
    witness.inputs = ⟨0x00851820, 0x00400000⟩ :: [⟨0x08000010, 0x00400004⟩] ∧ decode 0x00851820 = .ok (.add 3 4 5 0) := by decide

/-- InvalidWordReports; InvalidWordIsNoTrap on the ports. -/
theorem witness_InvalidWord :
    witnessInvalid.inputs = ⟨0x0000000C, 0x80000000⟩ :: [⟨0x00851820, 0x80000004⟩] ∧ invalidWord 0x0000000C = true
      ∧ invalidWord (portsAt 0x0000000C 0x80000000).w = true := by decide

/-- The other half of the invalid space, at both ends. -/
theorem witness_InvalidWord_opcode : invalidWord 0x04000000 = true ∧ invalidWord 0xFFFFFFFF = true := by decide

theorem witness_NothingPresentedChangesNothing : State.reset.inputs = [] := by decide

/-- EveryStepAnswersOneLine, StepIsDecodeThenRender and SignalsCarryTheRecord. -/
theorem witness_presenting : witness.inputs ≠ [] ∧ witness.inputs = ⟨0x00851820, 0x00400000⟩ :: [⟨0x08000010, 0x00400004⟩] := by
  decide

/-- Two states with the same ports and ROM and different outputs. -/
theorem witness_OutputsDependOnInputsAndRomAlone :
    (portsAt 0x00851820 0x00400000).w = (dirtyAt 0x00851820 0x00400000).w
      ∧ (portsAt 0x00851820 0x00400000).pc = (dirtyAt 0x00851820 0x00400000).pc
      ∧ (portsAt 0x00851820 0x00400000).rom = (dirtyAt 0x00851820 0x00400000).rom
      ∧ portsAt 0x00851820 0x00400000 ≠ dirtyAt 0x00851820 0x00400000 := by decide

/-- The first clause, under opcode 2 and at both ends of a region. -/
theorem witness_PcMatters_same_region :
    (presenting [⟨0x08000010, 0x90000000⟩]).inputs = ⟨0x08000010, 0x90000000⟩ :: []
      ∧ (presenting [⟨0x08000010, 0x9FFFFFFF⟩]).inputs = ⟨0x08000010, 0x9FFFFFFF⟩ :: []
      ∧ (0x90000000 : Word).extractLsb' 28 4 = (0x9FFFFFFF : Word).extractLsb' 28 4 := by decide

/-- The second clause, with pcs of two regions. -/
theorem witness_PcMatters_other_opcode :
    (presenting [⟨0x10830010, 0x00000000⟩]).inputs = ⟨0x10830010, 0x00000000⟩ :: []
      ∧ (presenting [⟨0x10830010, 0xFFFFFFFF⟩]).inputs = ⟨0x10830010, 0xFFFFFFFF⟩ :: []
      ∧ (0x10830010 : Word).extractLsb' 26 6 ≠ 0x02 ∧ (0x10830010 : Word).extractLsb' 26 6 ≠ 0x03 := by decide

theorem witness_FeedAdvancesPcByFour : ([0x00851820, 0x08000010] : List Word)[1]? = some 0x08000010 := by decide

/-- ThreeRegisterInstructionsComplete and ThreeRegisterWordsPrintRdRsRt. -/
theorem witness_threeRegisterForms :
    (⟨"nor".toList, .nor, 20, 0x27, .nor⟩ : RegisterForm) ∈ threeRegisterForms
      ∧ (portsAt 0x03FFFFE7 0).w.extractLsb' 26 6 = 0 ∧ (portsAt 0x03FFFFE7 0).w.extractLsb' 0 6 = 0x27 :=
  ⟨by simp [threeRegisterForms], by decide, by decide⟩

/-- SllSrlComplete and SllSrlWordsPrintRdRsCount, the srl form. -/
theorem witness_rsShiftForms :
    (⟨"srl".toList, .srl, 1, 0x02, .srl⟩ : RegisterForm) ∈ rsShiftForms
      ∧ (portsAt 0x03E51FC2 0).w &&& 0xFC00003F#32 = (0x02 : BitVec 6).setWidth 32 :=
  ⟨by simp [rsShiftForms], by decide⟩

/-- Both clauses of SraWordsPrintRdTwice (SH-3, SH-4). -/
theorem witness_SraWordsPrintRdTwice :
    (portsAt 0x00851883 0).w &&& 0xFC00003F#32 = 0x00000003#32
      ∧ (0x03E51883 : Word) &&& 0xFC00FFFF#32 = (portsAt 0x00851883 0).w &&& 0xFC00FFFF#32 := by decide

/-- JumpsComplete; JumpWordsGiveThePseudoDirectTarget and JumpTargetStaysInItsRegion under opcode 2. -/
theorem witness_jump_opcode2 :
    (⟨"j".toList, .j, 23, 0x02, .j⟩ : JumpForm) ∈ jumpForms
      ∧ (presenting [⟨0x0BFFFFFF, 0xFFFFFFFC⟩]).inputs = ⟨0x0BFFFFFF, 0xFFFFFFFC⟩ :: []
      ∧ (portsAt 0x0BFFFFFF 0xFFFFFFFC).w.extractLsb' 26 6 = 0x02 ∧ (0x0BFFFFFF : Word).extractLsb' 26 6 = 0x02 :=
  ⟨by simp [jumpForms], rfl, by decide, by decide⟩

/-- The same under opcode 3. -/
theorem witness_jump_opcode3 :
    (⟨"jal".toList, .jal, 24, 0x03, .jal⟩ : JumpForm) ∈ jumpForms
      ∧ (presenting [⟨0x0C000000, 0x10000000⟩]).inputs = ⟨0x0C000000, 0x10000000⟩ :: []
      ∧ (portsAt 0x0C000000 0x10000000).w.extractLsb' 26 6 = 0x03 ∧ (0x0C000000 : Word).extractLsb' 26 6 = 0x03 :=
  ⟨by simp [jumpForms], rfl, by decide, by decide⟩

/-- SignedImmediateInstructionsComplete and SignedImmediateWordsPrintDecimal. -/
theorem witness_signedForms :
    (⟨"slti".toList, .slti, 31, 0x0A, .slti⟩ : ImmediateForm) ∈ signedForms
      ∧ (presenting [⟨0x28818000, 0⟩]).inputs = ⟨0x28818000, 0⟩ :: [] ∧ (0x28818000 : Word).extractLsb' 26 6 = 0x0A :=
  ⟨by simp [signedForms], rfl, by decide⟩

/-- HexImmediateInstructionsComplete and HexImmediateWordsPrintHex. -/
theorem witness_hexForms :
    (⟨"sw".toList, .sw, 42, 0x2B, .sw⟩ : ImmediateForm) ∈ hexForms
      ∧ (presenting [⟨0xAC83FFFF, 0⟩]).inputs = ⟨0xAC83FFFF, 0⟩ :: [] ∧ (0xAC83FFFF : Word).extractLsb' 26 6 = 0x2B :=
  ⟨by simp [hexForms], rfl, by decide⟩

/-! SignalsFollowTheTable: a presented word for each clause, with the signals of R111 and R102 worked out by hand. -/

theorem witness_Signals_threeRegister :
    (presenting [⟨0x03FFFFEB, 0⟩]).inputs = ⟨0x03FFFFEB, 0⟩ :: []
      ∧ (⟨"sltu".toList, .sltu, 22, 0x2B, .sltu⟩ : RegisterForm) ∈ threeRegisterForms
      ∧ (0x03FFFFEB : Word).extractLsb' 26 6 = 0 ∧ (0x03FFFFEB : Word).extractLsb' 0 6 = 0x2B
      ∧ (outputsOf 0x03FFFFEB 0).2 = ⟨0, 1, 0, 22, 31, 31, 31, 31, 0x03FFFFEB⟩ :=
  ⟨rfl, by simp [threeRegisterForms], by decide, by decide, by decide⟩

theorem witness_Signals_rsShift :
    (presenting [⟨0x00851880, 0⟩]).inputs = ⟨0x00851880, 0⟩ :: []
      ∧ (⟨"sll".toList, .sll, 0, 0x00, .sll⟩ : RegisterForm) ∈ rsShiftForms
      ∧ (0x00851880 : Word).extractLsb' 26 6 = 0 ∧ (0x00851880 : Word).extractLsb' 0 6 = 0x00
      ∧ (outputsOf 0x00851880 0).2 = ⟨0, 1, 1, 0, 3, 4, 5, 2, 0x00851880⟩ :=
  ⟨rfl, by simp [rsShiftForms], by decide, by decide, by decide⟩

theorem witness_Signals_sra :
    (presenting [⟨0x00851883, 0⟩]).inputs = ⟨0x00851883, 0⟩ :: []
      ∧ (0x00851883 : Word).extractLsb' 26 6 = 0 ∧ (0x00851883 : Word).extractLsb' 0 6 = 0x03
      ∧ (outputsOf 0x00851883 0).2 = ⟨0, 1, 1, 2, 3, 3, 5, 2, 0x00851883⟩ := ⟨rfl, by decide, by decide, by decide⟩

theorem witness_Signals_jump :
    (presenting [⟨0x0FFFFFFF, 0x9FFFFFFC⟩]).inputs = ⟨0x0FFFFFFF, 0x9FFFFFFC⟩ :: []
      ∧ (⟨"jal".toList, .jal, 24, 0x03, .jal⟩ : JumpForm) ∈ jumpForms ∧ (0x0FFFFFFF : Word).extractLsb' 26 6 = 0x03
      ∧ (outputsOf 0x0FFFFFFF 0x9FFFFFFC).2 = ⟨1, 1, 2, 24, 31, 31, 31, 0x9FFFFFFC, 0x0FFFFFFF⟩ :=
  ⟨rfl, by simp [jumpForms], by decide, by decide⟩

theorem witness_Signals_signed :
    (presenting [⟨0x28818000, 0⟩]).inputs = ⟨0x28818000, 0⟩ :: []
      ∧ (⟨"slti".toList, .slti, 31, 0x0A, .slti⟩ : ImmediateForm) ∈ signedForms ∧ (0x28818000 : Word).extractLsb' 26 6 = 0x0A
      ∧ (outputsOf 0x28818000 0).2 = ⟨2, 1, 3, 31, 1, 4, 1, 0x8000, 0x28818000⟩ :=
  ⟨rfl, by simp [signedForms], by decide, by decide⟩

theorem witness_Signals_hex :
    (presenting [⟨0xAC83FFFF, 0⟩]).inputs = ⟨0xAC83FFFF, 0⟩ :: []
      ∧ (⟨"sw".toList, .sw, 42, 0x2B, .sw⟩ : ImmediateForm) ∈ hexForms ∧ (0xAC83FFFF : Word).extractLsb' 26 6 = 0x2B
      ∧ (outputsOf 0xAC83FFFF 0).2 = ⟨2, 1, 4, 42, 3, 4, 3, 0xFFFF, 0xAC83FFFF⟩ :=
  ⟨rfl, by simp [hexForms], by decide, by decide⟩

/-- The invalid space, in its register half and in its opcode half. -/
theorem witness_Signals_invalid :
    (presenting [⟨0x0085180C, 0⟩]).inputs = ⟨0x0085180C, 0⟩ :: [] ∧ invalidWord 0x0085180C = true
      ∧ (outputsOf 0x0085180C 0).2 = ⟨0, 0, 5, 63, 3, 4, 5, 0x0085180C, 0x0085180C⟩
      ∧ (presenting [⟨0x39081801, 0⟩]).inputs = ⟨0x39081801, 0⟩ :: [] ∧ invalidWord 0x39081801 = true
      ∧ (outputsOf 0x39081801 0).2 = ⟨2, 0, 5, 63, 3, 8, 8, 0x39081801, 0x39081801⟩ :=
  ⟨rfl, by decide, by decide, rfl, by decide, by decide⟩

/-- Both clauses of SDecStrSpellsTheSignedValue at the ends of their ranges; what R106 prints there. -/
theorem witness_SDecStr :
    (0x8000 : BitVec 16).toInt < 0 ∧ sDecStr 0x8000 = "-32768".toList
      ∧ (0xFFFF : BitVec 16).toInt < 0 ∧ sDecStr 0xFFFF = "-1".toList
      ∧ 0 ≤ (0x0000 : BitVec 16).toInt ∧ sDecStr 0x0000 = "0".toList
      ∧ 0 ≤ (0x7FFF : BitVec 16).toInt ∧ sDecStr 0x7FFF = "32767".toList := by decide

/-- Two ROMs that differ outside the entries named. -/
theorem witness_RenderReadsAtMostThreeEntries :
    (∀ i ∈ recordRegisters (.r3 .add 1 4 6),
        romRead (installNames defaultRegNames) i = romRead (installNames (defaultRegNames.set 30 ['s', '8'])) i)
      ∧ installNames defaultRegNames ≠ installNames (defaultRegNames.set 30 ['s', '8']) := by decide

/-- PowerUpTakesRegNames: an open entry, and a table that holds the five names. -/
theorem witness_PowerUpTakesRegNames :
    (30 : RegIdx) ∉ ([0, 3, 4, 5, 31] : List RegIdx) ∧ romHoldsFixedNames (defaultRegNames.set 30 ['s', '8']) = true := by
  decide

theorem witness_LinesTellRecordsApart :
    romNamesDistinctAndPlain (romNames (installNames defaultRegNames)) = true ∧ (Decoded.r3 .add 3 4 5).wellFormed = true
      ∧ (Decoded.jump .jal 0xFFFFFFFC).wellFormed = true ∧ (Decoded.invalid 0xFFFFFFFF).wellFormed = true := by decide

/-- NothingWritesTheRom and ADecodeLeavesNoStaleOutput: an instruction, a decode and a step that answer a next state. -/
theorem witness_NothingWritesTheRom :
    (∃ t, exec (.sw 3 4 0x10) witness = .next t) ∧ (∃ t, decodePorts witness = .next t) ∧ ∃ t, step witness = .next t :=
  ⟨⟨_, rfl⟩, ⟨_, rfl⟩, ⟨_, rfl⟩⟩

theorem reset_names_ascii : RomNamesAscii (installNames defaultRegNames) := by
  have h : ∀ i : RegIdx, ((romRead (installNames defaultRegNames) i).all fun c => decide (c.toNat < 128) && c != '\n') = true := by decide
  intro i c hc
  simpa using List.all_eq_true.1 (h i) c hc

/-- OutputsFollowInputsAlways (both ways), FixedNamesKept, RecordStaysWellFormed and LinesStayWellFormed. -/
theorem witness_invariants :
    OutputsFollowInputs witness ∧ witness.inputs ≠ [] ∧ FixedNames witness ∧ RecordWellFormed witness
      ∧ LinesWellFormed witness ∧ ∃ t, step witness = .next t := by
  refine ⟨⟨rfl, rfl, rfl⟩, by decide, by unfold FixedNames; decide, by unfold RecordWellFormed; decide, ?_, _, rfl⟩
  refine ⟨reset_names_ascii, ⟨"sll $zero, $zero, 0".toList, by decide, by decide, ?_⟩, ?_⟩
  · intro c hc
    have h : ("sll $zero, $zero, 0".toList.all fun c => decide (c.toNat < 128)) = true := by decide
    simpa using List.all_eq_true.1 h c hc
  · simp [witness, presenting, State.reset, State.powerUp]

end Sys2Proof.Tests
end

section
/-! PROOFS. The statements of 10_state.md about the ROM and about what the outputs depend on. -/

namespace Sys2Proof.Machine

/-! ### One decode -/

/-- What a decode drives the outputs with is chosen by the word and its address alone, the same from every state that has
them on its ports (10_state.md R31). -/
theorem decodePorts_emits_of_ports (w pc : Word) :
    ∃ d word, ∀ s : State, s.w = w → s.pc = pc → decodePorts s = .next (emit d word s) := by
  cases h : decode w with
  | ok i =>
    refine ⟨i.recordAt pc, encode i, ?_⟩
    rintro s rfl rfl
    simp [decodePorts_eq_emit, h]
  | error r =>
    refine ⟨.invalid w, w, ?_⟩
    rintro s rfl -
    simp [decodePorts_eq_emit, h]

/-! ### The ROM is never written -/

theorem exec_keeps_rom {i : Instr} {s t : State} (h : exec i s = .next t) : t.rom = s.rom := by
  rw [exec_eq_emit] at h
  cases h
  exact emit_rom ..

theorem decodePorts_keeps_rom {s t : State} (h : decodePorts s = .next t) : t.rom = s.rom := by
  obtain ⟨d, word, hemit⟩ := decodePorts_emits_of_ports s.w s.pc
  rw [hemit s rfl rfl] at h
  cases h
  exact emit_rom ..

theorem step_keeps_rom {s t : State} (h : step s = .next t) : t.rom = s.rom := by
  obtain ⟨-, hstep⟩ | ⟨w, pc, rest, -, hstep⟩ := step_cases s <;> rw [hstep] at h
  · cases h
    rfl
  · exact (decodePorts_keeps_rom h).trans (onPorts_rom ..)

/-! ### The five fixed names -/

/-- No ROM value decides entries 0, 3, 4, 5 and 31, so every state has the names of 10_state.md R21 there. -/
theorem fixedNames (s : State) : FixedNames s := by
  simp [FixedNames, romHoldsFixedNames, romNames]

/-! ### The statements -/

/-- Settles O16: the record and the word driven come from the ports alone, and the line is that record rendered with the ROM. -/
theorem outputsDependOnInputsAndRomAlone : Obligations.OutputsDependOnInputsAndRomAlone := by
  intro s s' hw hpc hrom
  obtain ⟨d, word, hemit⟩ := decodePorts_emits_of_ports s'.w s'.pc
  exact ⟨emit d word s, emit d word s', hemit s hw hpc, hemit s' rfl rfl, by simp, by simp [hrom], by simp⟩

/-- Settles O41: the read is the entry at its index, and each kind of move keeps the ROM by its own lemma above. -/
theorem nothingWritesTheRom : Obligations.NothingWritesTheRom := by
  refine ⟨fun rom i => ?_, fun _ _ _ => exec_keeps_rom, fun _ _ => decodePorts_keeps_rom, fun _ _ => step_keeps_rom⟩
  simpa using getElem_toList_eq_romRead rom i

/-- Settles O44: the five reads answer the wired-in names of every ROM, whichever `REG_NAMES` were installed in it. -/
theorem fixedNamesKept : Obligations.FixedNamesKept :=
  ⟨fun _ _ _ => ⟨romRead_zero _, romRead_three _, romRead_four _, romRead_five _, romRead_thirtyOne _⟩,
    fixedNames, fun _ t _ => fixedNames t⟩

end Sys2Proof.Machine
end

section
/-! PROOFS. The statement of 30_encoding.md about the slicer. -/

namespace Sys2Proof

/-! ### The bits of a field -/

/-- Bit `k` of a field that starts at bit `lo` is bit `lo + k` of the word, as long as `k` is inside the field. -/
theorem getLsbD_extractLsb'_of_lt (w : Word) {lo len k : Nat} (hk : k < len) :
    (w.extractLsb' lo len).getLsbD k = w.getLsbD (lo + k) := by
  rw [BitVec.getLsbD_extractLsb', decide_eq_true hk, Bool.true_and]

/-- A field at the bottom of the word keeps the positions of its bits. -/
theorem getLsbD_extractLsb'_zero_of_lt (w : Word) {len k : Nat} (hk : k < len) :
    (w.extractLsb' 0 len).getLsbD k = w.getLsbD k := by
  rw [getLsbD_extractLsb'_of_lt w hk, Nat.zero_add]

/-! ### The statement -/

/-- Settles O4: five fields start above bit 0; `funct`, `imm` and `target26` are the low ends of the word. -/
theorem slicerTakesTheFields : Obligations.SlicerTakesTheFields := by
  intro w
  refine ⟨?op, ?rs, ?rt, ?rd, ?shamt, ?funct, ?imm, ?target26⟩
  case op | rs | rt | rd | shamt => exact fun _ => getLsbD_extractLsb'_of_lt w
  case funct | imm | target26 => exact fun _ => getLsbD_extractLsb'_zero_of_lt w

end Sys2Proof
end

section
/-! PROOFS. The statements of 41_register_format.md about register-format words and the lines they print. -/

namespace Sys2Proof

/-! ### The register format's row of the opcode table -/

theorem decode_of_op_eq_zero {w : Word} (h : (slice w).op = 0) : decode w = decodeR (slice w) := by
  simp [decode, formatOf_eq_R.2 h]

/-- Where the mask is all ones, a word that matches a row of the table has the row's bits. -/
theorem extractLsb'_eq_of_masked {w mask row : Word} {lo len : Nat} (hmask : mask.extractLsb' lo len = BitVec.allOnes len)
    (h : w &&& mask = row) : w.extractLsb' lo len = row.extractLsb' lo len := by
  rw [← h, BitVec.extractLsb'_and, hmask, BitVec.and_allOnes]

/-- The register-format mask keeps the bits of `op`, which no row of that format sets. -/
theorem op_eq_zero_of_masked {w : Word} {code : BitVec 6} (h : w &&& 0xFC00003F#32 = code.setWidth 32) :
    (slice w).op = 0 := by
  have hrow : (code.setWidth 32).extractLsb' 26 6 = 0 := by ext; grind
  exact (extractLsb'_eq_of_masked (by decide) h).trans hrow

/-- The register-format mask keeps the bits of `funct`, where a row has its function code. -/
theorem funct_eq_of_masked {w : Word} {code : BitVec 6} (h : w &&& 0xFC00003F#32 = code.setWidth 32) :
    (slice w).funct = code := by
  have hrow : (code.setWidth 32).extractLsb' 0 6 = code := by ext; grind
  exact (extractLsb'_eq_of_masked (by decide) h).trans hrow

end Sys2Proof

namespace Sys2Proof.Machine

/-! ### The forms -/

/-- The decoder's function codes are those of the forms (30_encoding.md R72). -/
theorem decodeR_of_form {f : RegisterForm} (hf : f ∈ rsShiftForms ++ threeRegisterForms) {x : Fields}
    (hcode : x.funct = f.code) : decodeR x = .ok (f.instr x.rd x.rs x.rt x.shamt) := by
  fin_cases hf <;> simp [decodeR, hcode]

theorem form_text_eq_name {f : RegisterForm} (hf : f ∈ rsShiftForms ++ threeRegisterForms) : f.text = f.m.name := by
  fin_cases hf <;> rfl

theorem recordAt_of_threeRegisterForm {f : RegisterForm} (hf : f ∈ threeRegisterForms) (rd rs rt shamt : BitVec 5)
    (pc : Word) : (f.instr rd rs rt shamt).recordAt pc = .r3 f.m rd rs rt := by
  fin_cases hf <;> rfl

theorem recordAt_of_rsShiftForm {f : RegisterForm} (hf : f ∈ rsShiftForms) (rd rs rt shamt : BitVec 5)
    (pc : Word) : (f.instr rd rs rt shamt).recordAt pc = .shift f.m rd rs shamt := by
  fin_cases hf <;> rfl

/-! ### One decode of a register-format word -/

/-- A word with opcode 0 and the function code of a form drives the outputs with that form's record. -/
theorem decodePorts_of_form {f : RegisterForm} (hf : f ∈ rsShiftForms ++ threeRegisterForms) {s : State}
    (hop : (slice s.w).op = 0) (hcode : (slice s.w).funct = f.code) :
    ∃ word, decodePorts s = .next (emit
      ((f.instr (slice s.w).rd (slice s.w).rs (slice s.w).rt (slice s.w).shamt).recordAt s.pc) word s) := by
  have hdec := (decode_of_op_eq_zero hop).trans (decodeR_of_form hf hcode)
  exact ⟨_, by rw [decodePorts_eq_emit, hdec]⟩

/-! ### The statements -/

/-- Settles O27: the record is the three-register one, and its template is the line. -/
theorem threeRegisterWordsPrintRdRsRt : Obligations.ThreeRegisterWordsPrintRdRsRt := by
  intro f hf s hop hcode
  have hmem : f ∈ rsShiftForms ++ threeRegisterForms := List.mem_append_right _ hf
  obtain ⟨word, hnext⟩ := decodePorts_of_form hmem hop hcode
  rw [recordAt_of_threeRegisterForm hf] at hnext
  exact ⟨_, hnext, by simp [render, threeOperandLine, regStr, separator, slice, form_text_eq_name hmem]⟩

/-- Settles O28: the row fixes `op` and `funct` alone, so the record is the shift one whatever `rt` is. -/
theorem sllSrlWordsPrintRdRsCount : Obligations.SllSrlWordsPrintRdRsCount := by
  intro f hf s hrow
  have hmem : f ∈ rsShiftForms ++ threeRegisterForms := List.mem_append_left _ hf
  obtain ⟨word, hnext⟩ := decodePorts_of_form hmem (op_eq_zero_of_masked hrow) (funct_eq_of_masked hrow)
  rw [recordAt_of_rsShiftForm hf] at hnext
  exact ⟨_, hnext, rfl, by simp [render, threeOperandLine, regStr, separator, slice, form_text_eq_name hmem]⟩

end Sys2Proof.Machine
end

section
/-! PROOFS. The statement of 42_jump_format.md about jump words. -/

namespace Sys2Proof

/-! ### The jump format's two rows of the opcode table -/

theorem decode_of_jump_op {w : Word} (h : (slice w).op = 2 ∨ (slice w).op = 3) : decode w = decodeJ (slice w) := by
  rw [decode, formatOf_eq_J.2 h]

theorem decode_of_op_eq_two {w : Word} (h : (slice w).op = 2) : decode w = .ok (.j (slice w).target26) := by
  rw [decode_of_jump_op (.inl h), decodeJ, if_pos h]

theorem decode_of_op_eq_three {w : Word} (h : (slice w).op = 3) : decode w = .ok (.jal (slice w).target26) := by
  rw [decode_of_jump_op (.inr h), decodeJ, if_neg (by simp [h])]

/-- Masking with 26 ones keeps what zero-extending the sliced field gives. -/
theorem setWidth_target26 (w : Word) : (slice w).target26.setWidth 32 = w &&& 0x3FFFFFF#32 := by
  have hmask : w.toNat &&& 0x3FFFFFF = w.toNat % 2 ^ 26 := Nat.and_two_pow_sub_one_eq_mod w.toNat 26
  have hfield : (slice w).target26.toNat = w.toNat % 2 ^ 26 := by simp [slice]
  apply BitVec.eq_of_toNat_eq
  rw [BitVec.toNat_setWidth_of_le (by decide), hfield]
  exact hmask.symm

end Sys2Proof

namespace Sys2Proof.Machine

/-! ### The target and one decode -/

/-- The target built from the sliced field is that of the testable property in 42_jump_format.md R170, which masks the word. -/
theorem jumpTarget_target26 (w pc : Word) :
    jumpTarget (slice w).target26 pc = ((w &&& 0x3FFFFFF#32) <<< 2) ||| (pc &&& 0xF0000000#32) := by
  rw [jumpTarget, setWidth_target26]

theorem decodePorts_of_decode_eq_ok {s : State} {i : Instr} (h : decode s.w = .ok i) :
    decodePorts s = .next (emit (i.recordAt s.pc) (encode i) s) := by
  rw [decodePorts_eq_emit, h]

/-! ### The statement -/

/-- Settles O30: the opcode chooses the mnemonic, and record and line both show the one target. -/
theorem jumpWordsGiveThePseudoDirectTarget : Obligations.JumpWordsGiveThePseudoDirectTarget := by
  intro s hop
  rw [← jumpTarget_target26]
  have hconcat := jumpTarget_eq_concat (slice s.w).target26 s.pc
  obtain hj | hjal := hop
  · have hnext := decodePorts_of_decode_eq_ok (decode_of_op_eq_two hj)
    exact ⟨_, hnext, by simp [hj, Instr.recordAt], hconcat, by simp [hj, Instr.recordAt, render, Mnemonic.name]⟩
  · have hnext := decodePorts_of_decode_eq_ok (decode_of_op_eq_three hjal)
    exact ⟨_, hnext, by simp [hjal, Instr.recordAt], hconcat, by simp [hjal, Instr.recordAt, render, Mnemonic.name]⟩

end Sys2Proof.Machine
end

section
/-! PROOFS. The statement of 60_exceptions.md: the invalid verdict is no trap. -/

namespace Sys2Proof

/-! ### The decoder rejects the invalid space -/

/-- No arm of the register-format map is for one of the 41 codes of 30_encoding.md R74. -/
theorem decodeR_of_mem_invalidFunctionCodes {f : Fields} (h : f.funct ∈ invalidFunctionCodes) :
    decodeR f = .error .unrecognizedFunctionCode := by
  obtain ⟨_, _, _, _, _, funct, _, _⟩ := f
  fin_cases h <;> rfl

/-- No arm of the immediate-format map is for one of the 43 opcodes of 30_encoding.md R74. -/
theorem decodeI_of_mem_invalidOpcodes {f : Fields} (h : f.op ∈ invalidOpcodes) :
    decodeI f = .error .unrecognizedOpcode := by
  obtain ⟨op, _, _, _, _, _, _, _⟩ := f
  fin_cases h <;> rfl

/-- An invalid opcode is routed to the immediate format (30_encoding.md R63). -/
theorem formatOf_of_mem_invalidOpcodes : ∀ op ∈ invalidOpcodes, formatOf op = .I := by decide

theorem invalidWord_iff {w : Word} : invalidWord w = true ↔
    ((slice w).op = 0 ∧ (slice w).funct ∈ invalidFunctionCodes) ∨ (slice w).op ∈ invalidOpcodes := by
  simp [invalidWord, slice]

theorem decode_of_invalidWord {w : Word} (h : invalidWord w = true) : ∃ r, decode w = .error r := by
  obtain ⟨hop, hfunct⟩ | hop := invalidWord_iff.1 h
  · exact ⟨_, (decode_of_op_eq_zero hop).trans (decodeR_of_mem_invalidFunctionCodes hfunct)⟩
  · exact ⟨_, by rw [decode, formatOf_of_mem_invalidOpcodes _ hop, decodeI_of_mem_invalidOpcodes hop]⟩

end Sys2Proof

namespace Sys2Proof.Machine

/-! ### One decode of an invalid word -/

theorem decodePorts_of_invalidWord {s : State} (h : invalidWord s.w = true) :
    decodePorts s = .next (emit (.invalid s.w) s.w s) := by
  obtain ⟨r, hr⟩ := decode_of_invalidWord h
  rw [decodePorts_eq_emit, hr]

/-- Two states with one ROM, given the same word and address, decode them alike, whatever else they hold (10_state.md
R31). -/
theorem decodePorts_agree_of_rom_eq {s t : State} (hrom : t.rom = s.rom) (w pc : Word) :
    ∃ u v, decodePorts { t with w := w, pc := pc } = .next u ∧ decodePorts { s with w := w, pc := pc } = .next v
      ∧ u.d = v.d ∧ u.line = v.line ∧ u.signals = v.signals ∧ u.rom = v.rom := by
  obtain ⟨u, v, hu, hv, hd, hline, hsignals⟩ :=
    outputsDependOnInputsAndRomAlone { t with w := w, pc := pc } { s with w := w, pc := pc } rfl rfl hrom
  exact ⟨u, v, hu, hv, hd, hline, hsignals, (decodePorts_keeps_rom hu).trans (hrom.trans (decodePorts_keeps_rom hv).symm)⟩

/-! ### The statement -/

/-- Settles O11: the invalid verdict drives the outputs only, and of what it leaves the next decode reads the ROM alone. -/
theorem invalidWordIsNoTrap : Obligations.InvalidWordIsNoTrap := by
  intro s h
  have hline : render s.rom (.invalid s.w) = "invalid instruction 0x".toList ++ hexStr s.w ++ "\n".toList := rfl
  exact ⟨_, decodePorts_of_invalidWord h, emit_d .., hline, emit_rom .., emit_w .., emit_pc ..,
    decodePorts_agree_of_rom_eq (emit_rom ..)⟩

end Sys2Proof.Machine
end

section
/-! PROOFS. The statement of 70_reset_and_hazards.md: nothing stale on the outputs, after power-up or any decode. -/

namespace Sys2Proof

/-! ### A word that decodes to an instruction is that instruction's word -/

/-- An arm of the register-format map and the layout of its instruction name the same function code. -/
theorem encode_of_decodeR_eq_ok {f : Fields} {i : Instr} (h : decodeR f = .ok i) :
    encode i = encodeR f.rs f.rt f.rd f.shamt f.funct := by
  unfold decodeR at h
  split at h <;> cases h
  all_goals
    rename_i hcode
    exact congrArg (encodeR f.rs f.rt f.rd f.shamt) (BitVec.eq_of_toNat_eq hcode.symm)

/-- An arm of the immediate-format map and the layout of its instruction name the same opcode. -/
theorem encode_of_decodeI_eq_ok {f : Fields} {i : Instr} (h : decodeI f = .ok i) :
    encode i = encodeI f.op f.rs f.rt f.imm := by
  unfold decodeI at h
  split at h <;> cases h
  all_goals
    rename_i hop
    exact congrArg (encodeI · f.rs f.rt f.imm) (BitVec.eq_of_toNat_eq hop.symm)

theorem encode_of_decode_eq_ok {w : Word} {i : Instr} (h : decode w = .ok i) : encode i = w := by
  cases hfmt : formatOf (slice w).op with
  | R =>
    have hop := formatOf_eq_R.1 hfmt
    rw [decode_of_op_eq_zero hop] at h
    exact (encode_of_decodeR_eq_ok h).trans (encodeR_slice hop)
  | J =>
    obtain hop | hop := formatOf_eq_J.1 hfmt
    · rw [decode_of_op_eq_two hop] at h
      cases h
      exact (congrArg (encodeJ · _) hop.symm).trans (encodeJ_slice w)
    · rw [decode_of_op_eq_three hop] at h
      cases h
      exact (congrArg (encodeJ · _) hop.symm).trans (encodeJ_slice w)
  | I =>
    rw [decode, hfmt] at h
    exact (encode_of_decodeI_eq_ok h).trans (encodeI_slice w)

end Sys2Proof

namespace Sys2Proof.Machine

/-! ### The decoder's verdict and the spec's record -/

/-- The record for what the decoder says of the word `w` at the address `pc`. -/
def recordOfVerdict (w pc : Word) : Except DecodeReject Instr → Decoded
  | .ok i    => i.recordAt pc
  | .error _ => .invalid w

@[simp] theorem recordOfVerdict_ok (w pc : Word) (i : Instr) : recordOfVerdict w pc (.ok i) = i.recordAt pc := rfl
@[simp] theorem recordOfVerdict_error (w pc : Word) (r : DecodeReject) : recordOfVerdict w pc (.error r) = .invalid w := rfl

/-- `DecodeR` (41_register_format.md R130) and the register-format map have the same arms. -/
theorem recordR_eq_recordOfVerdict (w pc : Word) : recordR w = recordOfVerdict w pc (decodeR (slice w)) := by
  simp only [recordR, bitsAt_eq, BitVec.ofNat_toNat, BitVec.setWidth_eq, decodeR, slice]
  generalize (w.extractLsb' 0 6).toNat = code
  split <;> simp [Instr.recordAt, *]

/-- `DecodeJ` (42_jump_format.md R170) chooses by the opcode as the jump-format map does, and shows the same target. -/
theorem recordJ_eq_recordOfVerdict (w pc : Word) :
    recordJ (slice w).op.toNat w pc = recordOfVerdict w pc (decodeJ (slice w)) := by
  have hop : (slice w).op.toNat = 2 ↔ (slice w).op = 2 := BitVec.toNat_inj (y := 2)
  rw [recordJ, ← jumpTarget_target26, decodeJ]
  by_cases h : (slice w).op = 2
  · rw [if_pos (hop.2 h), if_pos h]
    rfl
  · rw [if_neg (mt hop.1 h), if_neg h]
    rfl

/-- `DecodeI` (43_immediate_format.md R180) and the immediate-format map have the same arms. -/
theorem recordI_eq_recordOfVerdict (w pc : Word) :
    recordI (slice w).op.toNat w = recordOfVerdict w pc (decodeI (slice w)) := by
  simp only [recordI, bitsAt_eq, BitVec.ofNat_toNat, BitVec.setWidth_eq, decodeI, slice]
  generalize (w.extractLsb' 26 6).toNat = op
  split <;> simp [Instr.recordAt, *]

/-- `Decode` (40_dispatch.md R100) routes a word to the format that `decode` routes it to. -/
theorem decodedRecord_eq_recordOfVerdict (w pc : Word) : decodedRecord w pc = recordOfVerdict w pc (decode w) := by
  have hop : bitsAt w 26 6 = (slice w).op.toNat := bitsAt_eq w 26 6
  have h0 : (slice w).op.toNat = 0 ↔ (slice w).op = 0 := BitVec.toNat_inj (y := 0)
  have h2 : (slice w).op.toNat = 2 ↔ (slice w).op = 2 := BitVec.toNat_inj (y := 2)
  have h3 : (slice w).op.toNat = 3 ↔ (slice w).op = 3 := BitVec.toNat_inj (y := 3)
  simp only [decodedRecord, hop, decode, formatOf, h0, h2, h3]
  split_ifs
  · exact recordR_eq_recordOfVerdict w pc
  · exact recordJ_eq_recordOfVerdict w pc
  · exact recordI_eq_recordOfVerdict w pc

/-! ### One decode is the spec's -/

/-- A decode drives the outputs with `Decode(w, pc)` of the word and the address on the ports. -/
theorem decodePorts_eq_emit_decodedRecord (s : State) :
    decodePorts s = .next (emit (decodedRecord s.w s.pc) s.w s) := by
  rw [decodePorts_eq_emit, decodedRecord_eq_recordOfVerdict]
  cases h : decode s.w with
  | ok i => simp [encode_of_decode_eq_ok h]
  | error r => rfl

/-- Driving the outputs with the record of the ports leaves nothing of the outputs before. -/
theorem emit_decodedRecord_outputsFollowInputs (s : State) :
    OutputsFollowInputs (emit (decodedRecord s.w s.pc) s.w s) := ⟨rfl, rfl, rfl⟩

theorem powerUp_outputsFollowInputs (names : RegNames) (w pc : Word) :
    OutputsFollowInputs (State.powerUp names w pc) := ⟨rfl, rfl, rfl⟩

/-! ### The statement -/

/-- Settles O42: power-up sets the outputs to the function of its inputs, and a decode drives them all anew. -/
theorem aDecodeLeavesNoStaleOutput : Obligations.ADecodeLeavesNoStaleOutput := by
  refine ⟨powerUp_outputsFollowInputs, fun s t h => ?_⟩
  rw [decodePorts_eq_emit_decodedRecord] at h
  cases h
  exact ⟨emit_w .., emit_pc .., emit_decodedRecord_outputsFollowInputs s⟩

end Sys2Proof.Machine
end

section
/-! PROOFS. The statements of 30_encoding.md: decoder and encoder, the opcode table, the invalid space. -/

namespace Sys2Proof

open Machine

/-! ### Decoding each layout -/

theorem decode_encodeR (rs rt rd shamt : BitVec 5) (funct : BitVec 6) :
    decode (encodeR rs rt rd shamt funct) = decodeR
      { op := 0, rs := rs, rt := rt, rd := rd, shamt := shamt, funct := funct,
        imm := rd ++ shamt ++ funct, target26 := rs ++ rt ++ rd ++ shamt ++ funct } := by
  rw [decode_of_op_eq_zero] <;> rw [slice_encodeR]

theorem decode_encodeI {op : BitVec 6} (rs rt : BitVec 5) (imm : BitVec 16) (hop : formatOf op = .I) :
    decode (encodeI op rs rt imm) = decodeI
      { op := op, rs := rs, rt := rt, rd := imm.extractLsb' 11 5, shamt := imm.extractLsb' 6 5,
        funct := imm.extractLsb' 0 6, imm := imm, target26 := rs ++ rt ++ imm } := by
  simp only [decode, slice_encodeI, hop]

/-- The opcode or function code of each layout selects the arm of the instruction that was laid out. -/
theorem decode_encode (i : Instr) : decode (encode i) = .ok i := by
  cases i
  case j => exact (decode_of_op_eq_two (by rw [encode, slice_encodeJ])).trans (by rw [encode, slice_encodeJ])
  case jal => exact (decode_of_op_eq_three (by rw [encode, slice_encodeJ])).trans (by rw [encode, slice_encodeJ])
  case beq | bne | blez | bgtz | addi | addiu | slti | sltiu | andi | ori | lui | lb | lw | lbu | lhu | sb | sh | sw =>
    exact decode_encodeI _ _ _ (by decide)
  all_goals exact decode_encodeR ..

/-! ### The opcode table -/

/-- Every instruction's word shows, under the mask of its row, the match of that row. -/
theorem encode_masked (i : Instr) : encode i &&& tableMask i.mnemonic = tableMatch i.mnemonic := by
  cases i
  case j | jal => exact encodeJ_masked ..
  case beq | bne | blez | bgtz | addi | addiu | slti | sltiu | andi | ori | lui | lb | lw | lbu | lhu | sb | sh | sw =>
    exact encodeI_masked ..
  all_goals exact encodeR_masked ..

/-- A word that matches a register-format row decodes by the row's function code. -/
theorem decode_of_register_row {w row : Word} (h : w &&& 0xFC00003F#32 = row) (hop : row.extractLsb' 26 6 = 0) :
    decode w = decodeR { slice w with funct := row.extractLsb' 0 6 } := by
  have hfunct : (slice w).funct = row.extractLsb' 0 6 := extractLsb'_eq_of_masked (by decide) h
  rw [decode_of_op_eq_zero ((extractLsb'_eq_of_masked (by decide) h).trans hop), ← hfunct]

/-- A word that matches an immediate-format row decodes by the row's opcode. -/
theorem decode_of_immediate_row {w row : Word} (h : w &&& 0xFC000000#32 = row)
    (hfmt : formatOf (row.extractLsb' 26 6) = .I) :
    decode w = decodeI { slice w with op := row.extractLsb' 26 6 } := by
  have hop : (slice w).op = row.extractLsb' 26 6 := extractLsb'_eq_of_masked (by decide) h
  rw [decode, hop, hfmt, ← hop]

theorem exists_decode_of_row {w : Word} {m : Mnemonic} (h : w &&& tableMask m = tableMatch m) :
    ∃ i, decode w = .ok i ∧ i.mnemonic = m := by
  cases m
  case j => exact ⟨_, decode_of_op_eq_two (extractLsb'_eq_of_masked (by decide) h), rfl⟩
  case jal => exact ⟨_, decode_of_op_eq_three (extractLsb'_eq_of_masked (by decide) h), rfl⟩
  case beq | bne | blez | bgtz | addi | addiu | slti | sltiu | andi | ori | lui | lb | lw | lbu | lhu | sb | sh | sw =>
    exact ⟨_, decode_of_immediate_row h (by decide), rfl⟩
  all_goals exact ⟨_, decode_of_register_row h (by decide), rfl⟩

/-! ### The statements -/

/-- Settles O1: each layout is decoded by its own code. -/
theorem decodeOfEncode : Obligations.DecodeOfEncode := decode_encode

/-- Settles O2: the fields and the code of a word that decodes are all its bits. -/
theorem encodeOfDecode : Obligations.EncodeOfDecode := fun _ _ => encode_of_decode_eq_ok

/-- Settles O3: the five recognized words are the encodings of what they stand for, the other two have invalid codes. -/
theorem writtenWordsDecode : Obligations.WrittenWordsDecode :=
  ⟨decode_encode (.add 3 4 5 7), decode_encode (.sra 3 31 5 2), decode_encode (.jal 0x0100004),
    decode_encode (.addi 3 4 0x8000), decode_encode (.sw 3 4 0x0010), by decide, by decide⟩

/-- Settles O5: each concatenation is compared with the word bit by bit. -/
theorem fieldsMakeUpTheWord : Obligations.FieldsMakeUpTheWord := by
  intro w
  simp only [slice]
  refine ⟨?_, ?_, ?_⟩ <;> ext k hk <;> simp <;> grind

/-- Settles O6: a word that decodes is its instruction's word, which matches that row; a word that matches a row has the
row's codes. -/
theorem selectionByMaskAndMatch : Obligations.SelectionByMaskAndMatch := by
  refine fun w m => ⟨?_, exists_decode_of_row⟩
  rintro ⟨i, hdec, rfl⟩
  rw [← encode_of_decode_eq_ok hdec, encode_masked]

end Sys2Proof
end

section
/-! PROOFS. Every word belongs to one row of the spec's tables or to the invalid space: the decoder's verdict and the
record for each class, and the statements of 30_encoding.md §6. -/

namespace Sys2Proof

open Machine

/-! ### The classes of words -/

/-- Every function code is invalid, or that of `sra`, or that of a form (30_encoding.md R72, R74). -/
theorem functionCode_cases (code : BitVec 6) :
    code ∈ invalidFunctionCodes ∨ code = 3 ∨ (∃ f ∈ rsShiftForms, code = f.code)
      ∨ ∃ f ∈ threeRegisterForms, code = f.code := by
  revert code; decide

/-- Every opcode is invalid, or 0, or that of a form (30_encoding.md R71, R74). -/
theorem opcode_cases (op : BitVec 6) :
    op ∈ invalidOpcodes ∨ op = 0 ∨ (∃ f ∈ jumpForms, op = f.code) ∨ (∃ f ∈ signedForms, op = f.code)
      ∨ ∃ f ∈ hexForms, op = f.code := by
  revert op; decide

/-- What a word can be: a word of the invalid space, or one of a row of 41_register_format.md, 42_jump_format.md or
43_immediate_format.md. -/
inductive WordClass (w : Word) : Prop where
  | invalid (h : invalidWord w = true)
  | sra (hop : (slice w).op = 0) (hfunct : (slice w).funct = 3)
  | rsShift (f : RegisterForm) (hf : f ∈ rsShiftForms) (hop : (slice w).op = 0) (hfunct : (slice w).funct = f.code)
  | threeRegister (f : RegisterForm) (hf : f ∈ threeRegisterForms) (hop : (slice w).op = 0)
      (hfunct : (slice w).funct = f.code)
  | jump (f : JumpForm) (hf : f ∈ jumpForms) (hop : (slice w).op = f.code)
  | signed (f : ImmediateForm) (hf : f ∈ signedForms) (hop : (slice w).op = f.code)
  | hex (f : ImmediateForm) (hf : f ∈ hexForms) (hop : (slice w).op = f.code)

theorem wordClass (w : Word) : WordClass w := by
  obtain hinvalid | h0 | ⟨f, hf, hop⟩ | ⟨f, hf, hop⟩ | ⟨f, hf, hop⟩ := opcode_cases (slice w).op
  · exact .invalid (invalidWord_iff.2 (.inr hinvalid))
  · obtain hinvalid | h3 | ⟨f, hf, hfunct⟩ | ⟨f, hf, hfunct⟩ := functionCode_cases (slice w).funct
    · exact .invalid (invalidWord_iff.2 (.inl ⟨h0, hinvalid⟩))
    · exact .sra h0 h3
    · exact .rsShift f hf h0 hfunct
    · exact .threeRegister f hf h0 hfunct
  · exact .jump f hf hop
  · exact .signed f hf hop
  · exact .hex f hf hop

end Sys2Proof

namespace Sys2Proof.Machine

/-! ### The instruction of each class -/

section

variable {w : Word}

theorem decode_of_registerForm {f : RegisterForm} (hf : f ∈ rsShiftForms ++ threeRegisterForms)
    (hop : (slice w).op = 0) (hfunct : (slice w).funct = f.code) :
    decode w = .ok (f.instr (slice w).rd (slice w).rs (slice w).rt (slice w).shamt) :=
  (decode_of_op_eq_zero hop).trans (decodeR_of_form hf hfunct)

theorem decode_of_sra (hop : (slice w).op = 0) (hfunct : (slice w).funct = 3) :
    decode w = .ok (.sra (slice w).rd (slice w).rs (slice w).rt (slice w).shamt) := by
  rw [decode_of_op_eq_zero hop]
  simp [decodeR, hfunct]

theorem formatOf_of_jumpForm : ∀ f ∈ jumpForms, formatOf f.code = .J := by decide

theorem formatOf_of_immediateForm : ∀ f ∈ signedForms ++ hexForms, formatOf f.code = .I := by decide

theorem decode_of_jumpForm {f : JumpForm} (hf : f ∈ jumpForms) (hop : (slice w).op = f.code) :
    decode w = .ok (f.instr (slice w).target26) := by
  fin_cases hf
  · exact decode_of_op_eq_two hop
  · exact decode_of_op_eq_three hop

/-- The decoder's opcodes are those of the forms (30_encoding.md R71). -/
theorem decodeI_of_form {f : ImmediateForm} (hf : f ∈ signedForms ++ hexForms) {x : Fields} (hop : x.op = f.code) :
    decodeI x = .ok (f.instr x.rt x.rs x.imm) := by
  obtain ⟨op, _, _, _, _, _, _, _⟩ := x
  obtain rfl : op = f.code := hop
  fin_cases hf <;> rfl

theorem decode_of_immediateForm {f : ImmediateForm} (hf : f ∈ signedForms ++ hexForms) (hop : (slice w).op = f.code) :
    decode w = .ok (f.instr (slice w).rt (slice w).rs (slice w).imm) := by
  rw [decode, hop, formatOf_of_immediateForm f hf]
  exact decodeI_of_form hf hop

/-! ### The record of each form -/

theorem recordAt_of_jumpForm {f : JumpForm} (hf : f ∈ jumpForms) (target26 : BitVec 26) (pc : Word) :
    (f.instr target26).recordAt pc = .jump f.m (jumpTarget target26 pc) := by
  fin_cases hf <;> rfl

theorem recordAt_of_signedForm {f : ImmediateForm} (hf : f ∈ signedForms) (rt rs : BitVec 5) (imm : BitVec 16)
    (pc : Word) : (f.instr rt rs imm).recordAt pc = .immS f.m rt rs imm := by
  fin_cases hf <;> rfl

theorem recordAt_of_hexForm {f : ImmediateForm} (hf : f ∈ hexForms) (rt rs : BitVec 5) (imm : BitVec 16)
    (pc : Word) : (f.instr rt rs imm).recordAt pc = .immX f.m rt rs imm := by
  fin_cases hf <;> rfl

/-! ### The record of each class of words -/

theorem decodedRecord_of_decode_eq_ok {i : Instr} (pc : Word) (h : decode w = .ok i) :
    decodedRecord w pc = i.recordAt pc := by
  rw [decodedRecord_eq_recordOfVerdict, h, recordOfVerdict_ok]

theorem decodedRecord_of_invalidWord (pc : Word) (h : invalidWord w = true) : decodedRecord w pc = .invalid w := by
  obtain ⟨r, hr⟩ := decode_of_invalidWord h
  rw [decodedRecord_eq_recordOfVerdict, hr, recordOfVerdict_error]

theorem decodedRecord_of_sra (pc : Word) (hop : (slice w).op = 0) (hfunct : (slice w).funct = 3) :
    decodedRecord w pc = .shift .sra (slice w).rd (slice w).rd (slice w).shamt :=
  decodedRecord_of_decode_eq_ok pc (decode_of_sra hop hfunct)

theorem decodedRecord_of_rsShiftForm (pc : Word) {f : RegisterForm} (hf : f ∈ rsShiftForms)
    (hop : (slice w).op = 0) (hfunct : (slice w).funct = f.code) :
    decodedRecord w pc = .shift f.m (slice w).rd (slice w).rs (slice w).shamt := by
  rw [decodedRecord_of_decode_eq_ok pc (decode_of_registerForm (List.mem_append_left _ hf) hop hfunct),
    recordAt_of_rsShiftForm hf]

theorem decodedRecord_of_threeRegisterForm (pc : Word) {f : RegisterForm} (hf : f ∈ threeRegisterForms)
    (hop : (slice w).op = 0) (hfunct : (slice w).funct = f.code) :
    decodedRecord w pc = .r3 f.m (slice w).rd (slice w).rs (slice w).rt := by
  rw [decodedRecord_of_decode_eq_ok pc (decode_of_registerForm (List.mem_append_right _ hf) hop hfunct),
    recordAt_of_threeRegisterForm hf]

theorem decodedRecord_of_jumpForm (pc : Word) {f : JumpForm} (hf : f ∈ jumpForms) (hop : (slice w).op = f.code) :
    decodedRecord w pc = .jump f.m (jumpTarget (slice w).target26 pc) := by
  rw [decodedRecord_of_decode_eq_ok pc (decode_of_jumpForm hf hop), recordAt_of_jumpForm hf]

theorem decodedRecord_of_signedForm (pc : Word) {f : ImmediateForm} (hf : f ∈ signedForms)
    (hop : (slice w).op = f.code) :
    decodedRecord w pc = .immS f.m (slice w).rt (slice w).rs (slice w).imm := by
  rw [decodedRecord_of_decode_eq_ok pc (decode_of_immediateForm (List.mem_append_left _ hf) hop),
    recordAt_of_signedForm hf]

theorem decodedRecord_of_hexForm (pc : Word) {f : ImmediateForm} (hf : f ∈ hexForms) (hop : (slice w).op = f.code) :
    decodedRecord w pc = .immX f.m (slice w).rt (slice w).rs (slice w).imm := by
  rw [decodedRecord_of_decode_eq_ok pc (decode_of_immediateForm (List.mem_append_right _ hf) hop),
    recordAt_of_hexForm hf]

/-! ### The invalid space -/

theorem exists_decode_of_not_invalidWord (h : ¬ invalidWord w = true) : ∃ i, decode w = .ok i := by
  cases wordClass w with
  | invalid hinvalid => exact absurd hinvalid h
  | sra hop hfunct => exact ⟨_, decode_of_sra hop hfunct⟩
  | rsShift f hf hop hfunct => exact ⟨_, decode_of_registerForm (List.mem_append_left _ hf) hop hfunct⟩
  | threeRegister f hf hop hfunct => exact ⟨_, decode_of_registerForm (List.mem_append_right _ hf) hop hfunct⟩
  | jump f hf hop => exact ⟨_, decode_of_jumpForm hf hop⟩
  | signed f hf hop => exact ⟨_, decode_of_immediateForm (List.mem_append_left _ hf) hop⟩
  | hex f hf hop => exact ⟨_, decode_of_immediateForm (List.mem_append_right _ hf) hop⟩

theorem invalidWord_of_decode_eq_error {r : DecodeReject} (h : decode w = .error r) : invalidWord w = true := by
  by_contra hvalid
  obtain ⟨i, hi⟩ := exists_decode_of_not_invalidWord hvalid
  rw [hi] at h
  cases h

end

/-! ### The size of the invalid space -/

/-- A word taken apart into its opcode, the 20 bits that no map reads, and its function code. -/
def splitWord : Word ≃ BitVec 6 × BitVec 20 × BitVec 6 where
  toFun w := (w.extractLsb' 26 6, w.extractLsb' 6 20, w.extractLsb' 0 6)
  invFun p := p.1 ++ p.2.1 ++ p.2.2
  left_inv w := by ext k hk; simp; grind
  right_inv p := by
    refine Prod.ext ?_ (Prod.ext ?_ ?_) <;> ext k hk <;> simp <;> grind

theorem card_bitVec (n : Nat) : Nat.card (BitVec n) = 2 ^ n := by
  rw [Nat.card_congr BitVec.equivFin.toEquiv, Nat.card_fin]

/-- The opcode and the function code of the two halves of the invalid space (30_encoding.md R74), the other bits free. -/
def invalidParts : Set (BitVec 6 × BitVec 20 × BitVec 6) :=
  {0} ×ˢ Set.univ ×ˢ ↑invalidFunctionCodes.toFinset ∪ ↑invalidOpcodes.toFinset ×ˢ Set.univ

theorem invalidWord_iff_splitWord (w : Word) : invalidWord w = true ↔ splitWord w ∈ invalidParts := by
  simp [invalidWord_iff, invalidParts, splitWord, slice]

/-- Opcode 0 is not one of the 43, so the halves are disjoint. -/
theorem ncard_invalidParts : invalidParts.ncard = 41 * 2 ^ 20 + 43 * 2 ^ 26 := by
  have hcodes : invalidFunctionCodes.toFinset.card = 41 := by decide
  have hopcodes : invalidOpcodes.toFinset.card = 43 := by decide
  have hzero : (0 : BitVec 6) ∉ invalidOpcodes := by decide
  rw [invalidParts, Set.ncard_union_eq]
  · simp [Set.ncard_prod, card_bitVec, hcodes, hopcodes, -List.coe_toFinset, -Nat.card_eq_fintype_card]
  · exact Set.disjoint_prod.2 (.inl (by simpa using hzero))

/-! ### The statements -/

/-- Settles O7: the words of the invalid space are rejected, and every other class of words is decoded. -/
theorem invalidSpace : Obligations.InvalidSpace :=
  fun _ => ⟨fun ⟨_, h⟩ => invalidWord_of_decode_eq_error h, decode_of_invalidWord⟩

/-- Settles O8: the words of the invalid space are counted by their parts. -/
theorem invalidSpaceSize : Obligations.InvalidSpaceSize := by
  rw [Obligations.InvalidSpaceSize, ← ncard_invalidParts, ← Nat.card_coe_set_eq]
  exact Nat.card_congr (splitWord.subtypeEquiv invalidWord_iff_splitWord)

end Sys2Proof.Machine
end

section
/-! PROOFS. The statements about the step: what it presents, decodes and lists, and the invariants it keeps. -/

namespace Sys2Proof.Machine

/-! ### What a step answers -/

section

variable {s t : State} {w pc : Word} {rest : List Input}

theorem step_of_inputs_eq_nil (h : s.inputs = []) : step s = .next s := by
  simp [step, presentNext_of_nil h, idle]

theorem step_of_inputs_eq_cons (h : s.inputs = ⟨w, pc⟩ :: rest) : step s = decodePorts (onPorts s w pc rest) := by
  simp [step, presentNext_of_cons h]

/-- A step that presents a pair drives the outputs with `Decode(w, pc)` of that pair. -/
theorem step_eq_emit (h : s.inputs = ⟨w, pc⟩ :: rest) :
    step s = .next (emit (decodedRecord w pc) w (onPorts s w pc rest)) := by
  rw [step_of_inputs_eq_cons h, decodePorts_eq_emit_decodedRecord, onPorts_w, onPorts_pc]

/-- The state after a step is the same state, or the one in which the pair presented drives the outputs. -/
theorem step_next_cases (h : step s = .next t) :
    (s.inputs = [] ∧ t = s) ∨ ∃ w pc rest, s.inputs = ⟨w, pc⟩ :: rest
      ∧ t = emit (decodedRecord w pc) w (onPorts s w pc rest) := by
  obtain ⟨hin, hstep⟩ | ⟨w, pc, rest, hin, -⟩ := step_cases s
  · rw [hstep] at h
    cases h
    exact .inl ⟨hin, rfl⟩
  · rw [step_eq_emit hin] at h
    cases h
    exact .inr ⟨w, pc, rest, hin, rfl⟩

end

/-! ### The record is one a decode may build -/

theorem mem_threeRegisterMnemonics_of_form :
    ∀ f ∈ threeRegisterForms, f.m ∈ threeRegisterMnemonics := by decide

theorem mem_hexImmediateMnemonics_of_form :
    ∀ f ∈ hexForms, f.m ∈ hexImmediateMnemonics := by decide

/-- The two low bits of a jump's target are the zeros it is shifted by. -/
theorem jumpTarget_aligned (target26 : BitVec 26) (pc : Word) : (jumpTarget target26 pc).extractLsb' 0 2 = 0 := by
  rw [jumpTarget_eq_concat]
  ext k hk; simp; grind

/-- A jump's target has the region of its own address. -/
theorem jumpTarget_region (target26 : BitVec 26) (pc : Word) :
    (jumpTarget target26 pc).extractLsb' 28 4 = pc.extractLsb' 28 4 := by
  rw [jumpTarget_eq_concat]
  ext k hk; simp; grind

theorem decodedRecord_wellFormed (w pc : Word) : (decodedRecord w pc).wellFormed = true := by
  cases wordClass w with
  | invalid h => simpa [decodedRecord_of_invalidWord pc h, Decoded.wellFormed] using h
  | sra hop hfunct => simp [decodedRecord_of_sra pc hop hfunct, Decoded.wellFormed]
  | rsShift f hf hop hfunct =>
    rw [decodedRecord_of_rsShiftForm pc hf hop hfunct]
    fin_cases hf <;> rfl
  | threeRegister f hf hop hfunct =>
    simp [decodedRecord_of_threeRegisterForm pc hf hop hfunct, Decoded.wellFormed, mem_threeRegisterMnemonics_of_form f hf]
  | jump f hf hop =>
    rw [decodedRecord_of_jumpForm pc hf hop]
    fin_cases hf <;> simp [Decoded.wellFormed, jumpTarget_aligned]
  | signed f hf hop =>
    rw [decodedRecord_of_signedForm pc hf hop]
    fin_cases hf <;> rfl
  | hex f hf hop =>
    simp [decodedRecord_of_hexForm pc hf hop, Decoded.wellFormed, mem_hexImmediateMnemonics_of_form f hf]

/-! ### The line is one line of ASCII text -/

/-- ASCII text without a newline. -/
def PlainAscii (t : Text) : Prop := ∀ c ∈ t, c.toNat < 128 ∧ c ≠ '\n'

theorem plainAscii_append {t u : Text} : PlainAscii (t ++ u) ↔ PlainAscii t ∧ PlainAscii u := List.forall_mem_append

theorem plainAscii_cons {c : Char} {t : Text} : PlainAscii (c :: t) ↔ (c.toNat < 128 ∧ c ≠ '\n') ∧ PlainAscii t :=
  List.forall_mem_cons

theorem plainAscii_nil : PlainAscii [] := by simp [PlainAscii]

/-- The check of a closed text, by evaluation. -/
theorem plainAscii_of_all {t : Text} (h : t.all (fun c => decide (c.toNat < 128) && c != '\n') = true) : PlainAscii t := by
  simpa [PlainAscii] using h

theorem plainAscii_digitChar (n : Nat) : (digitChar n).toNat < 128 ∧ digitChar n ≠ '\n' := by
  unfold digitChar
  split <;> decide

theorem plainAscii_digits (base fuel n : Nat) : PlainAscii (digits base fuel n) := by
  induction fuel generalizing n with
  | zero => exact plainAscii_nil
  | succ fuel ih =>
    have hdigit (m : Nat) : PlainAscii [digitChar m] := plainAscii_cons.2 ⟨plainAscii_digitChar m, plainAscii_nil⟩
    rw [digits]
    split
    · exact hdigit n
    · exact plainAscii_append.2 ⟨ih _, hdigit _⟩

theorem plainAscii_hexStr {n : Nat} (v : BitVec n) : PlainAscii (hexStr v) := plainAscii_digits 16 (n + 1) v.toNat

theorem plainAscii_decStr {n : Nat} (v : BitVec n) : PlainAscii (decStr v) := plainAscii_digits 10 (n + 1) v.toNat

theorem plainAscii_sDecStr (imm : BitVec 16) : PlainAscii (sDecStr imm) := by
  rw [sDecStr]
  split
  · exact plainAscii_cons.2 ⟨by decide, plainAscii_decStr _⟩
  · exact plainAscii_decStr imm

theorem plainAscii_name (m : Mnemonic) : PlainAscii m.name := plainAscii_of_all (by cases m <;> decide)

theorem plainAscii_invalidPrefix : PlainAscii invalidPrefix := plainAscii_of_all (by decide)

theorem plainAscii_regStr {rom : Rom} (h : RomNamesAscii rom) (i : RegIdx) : PlainAscii (regStr rom i) :=
  plainAscii_cons.2 ⟨by decide, h i⟩

theorem oneAsciiLine_of_plainAscii {t : Text} (h : PlainAscii t) : OneAsciiLine (t ++ ['\n']) :=
  ⟨t, rfl, fun hmem => (h _ hmem).2 rfl, fun c hc => (h c hc).1⟩

theorem oneAsciiLine_threeOperandLine {name x y z : Text} (hname : PlainAscii name) (hx : PlainAscii x)
    (hy : PlainAscii y) (hz : PlainAscii z) : OneAsciiLine (threeOperandLine name x y z) := by
  have hspace : PlainAscii [' '] := plainAscii_cons.2 ⟨by decide, plainAscii_nil⟩
  have hseparator : PlainAscii separator := plainAscii_cons.2 ⟨by decide, hspace⟩
  exact oneAsciiLine_of_plainAscii (by simp only [plainAscii_append]; tauto)

theorem oneAsciiLine_render {rom : Rom} (h : RomNamesAscii rom) (d : Decoded) : OneAsciiLine (render rom d) := by
  have hhex : PlainAscii [' ', '0', 'x'] := by simp [plainAscii_cons, plainAscii_nil]
  have hreg := plainAscii_regStr h
  cases d with
  | r3 m d s t => exact oneAsciiLine_threeOperandLine (plainAscii_name m) (hreg d) (hreg s) (hreg t)
  | shift m a b sa =>
    exact oneAsciiLine_threeOperandLine (plainAscii_name m) (hreg a) (hreg b) (plainAscii_decStr sa)
  | jump m target =>
    exact oneAsciiLine_of_plainAscii
      (plainAscii_append.2 ⟨plainAscii_append.2 ⟨plainAscii_name m, hhex⟩, plainAscii_hexStr target⟩)
  | immS m t s imm => exact oneAsciiLine_threeOperandLine (plainAscii_name m) (hreg t) (hreg s) (plainAscii_sDecStr imm)
  | immX m t s imm =>
    exact oneAsciiLine_threeOperandLine (plainAscii_name m) (hreg t) (hreg s)
      (plainAscii_append.2 ⟨(plainAscii_cons.1 hhex).2, plainAscii_hexStr imm⟩)
  | invalid word =>
    exact oneAsciiLine_of_plainAscii (plainAscii_append.2 ⟨plainAscii_invalidPrefix, plainAscii_hexStr word⟩)

/-! ### The invariants -/

/-- Settles O43: a step that presents a pair drives all outputs from it, and one that presents none changes nothing. -/
theorem outputsFollowInputsAlways : Obligations.OutputsFollowInputsAlways := by
  intro s t h hbefore
  obtain ⟨hnil, rfl⟩ | ⟨w, pc, rest, -, rfl⟩ := step_next_cases h
  · exact hbefore.resolve_right (absurd hnil)
  · exact emit_decodedRecord_outputsFollowInputs (onPorts s w pc rest)

/-- Settles O45: the record of every class of words is one that R101 allows. -/
theorem recordStaysWellFormed : Obligations.RecordStaysWellFormed := by
  intro s t hbefore h
  obtain ⟨-, rfl⟩ | ⟨w, pc, rest, -, rfl⟩ := step_next_cases h
  · exact hbefore
  · exact decodedRecord_wellFormed w pc

/-- Settles O46: the one line a step adds is a rendered record, whose names come from the ROM or from the mnemonics. -/
theorem linesStayWellFormed : Obligations.LinesStayWellFormed := by
  rintro s t ⟨hrom, hline, hlisting⟩ h
  obtain ⟨-, rfl⟩ | ⟨w, pc, rest, -, rfl⟩ := step_next_cases h
  · exact ⟨hrom, hline, hlisting⟩
  · have hnew := oneAsciiLine_render hrom (decodedRecord w pc)
    refine ⟨hrom, hnew, fun l hl => ?_⟩
    obtain hold | rfl := by simpa using hl
    · exact hlisting l hold
    · exact hnew

end Sys2Proof.Machine
end

section
/-! PROOFS. The statements about the instructions: each completes with its record, its line and its signals, and leaves
everything else as it was. -/

namespace Sys2Proof.Machine

/-! ### The lines, each as its template spells it (40_dispatch.md R108) -/

section

variable (rom : Rom) (m : Mnemonic) (a b c : RegIdx)

theorem render_r3 : render rom (.r3 m a b c) = m.name ++ " $".toList ++ romRead rom a ++ ", $".toList ++ romRead rom b
    ++ ", $".toList ++ romRead rom c ++ "\n".toList := by
  simp [render, threeOperandLine, regStr, separator]

theorem render_shift (sa : BitVec 5) : render rom (.shift m a b sa) = m.name ++ " $".toList ++ romRead rom a
    ++ ", $".toList ++ romRead rom b ++ ", ".toList ++ decStr sa ++ "\n".toList := by
  simp [render, threeOperandLine, regStr, separator]

theorem render_jump (target : Word) : render rom (.jump m target) = m.name ++ " 0x".toList ++ hexStr target
    ++ "\n".toList := by
  simp [render]

theorem render_immS (imm : BitVec 16) : render rom (.immS m a b imm) = m.name ++ " $".toList ++ romRead rom a
    ++ ", $".toList ++ romRead rom b ++ ", ".toList ++ sDecStr imm ++ "\n".toList := by
  simp [render, threeOperandLine, regStr, separator]

theorem render_immX (imm : BitVec 16) : render rom (.immX m a b imm) = m.name ++ " $".toList ++ romRead rom a
    ++ ", $".toList ++ romRead rom b ++ ", 0x".toList ++ hexStr imm ++ "\n".toList := by
  simp [render, threeOperandLine, regStr, separator]

end

/-! ### The forms: printed name, id and word -/

theorem registerForm_id_eq : ∀ f ∈ rsShiftForms ++ threeRegisterForms, f.id = f.m.id := by decide

theorem jumpForm_id_eq : ∀ f ∈ jumpForms, f.id = f.m.id := by decide

theorem immediateForm_id_eq : ∀ f ∈ signedForms ++ hexForms, f.id = f.m.id := by decide

theorem jumpForm_text_eq_name : ∀ f ∈ jumpForms, f.text = f.m.name := by decide

theorem immediateForm_text_eq_name : ∀ f ∈ signedForms ++ hexForms, f.text = f.m.name := by decide

theorem encode_of_registerForm {f : RegisterForm} (hf : f ∈ rsShiftForms ++ threeRegisterForms)
    (rd rs rt shamt : BitVec 5) : encode (f.instr rd rs rt shamt) = encodeR rs rt rd shamt f.code := by
  fin_cases hf <;> rfl

theorem encode_of_jumpForm {f : JumpForm} (hf : f ∈ jumpForms) (target26 : BitVec 26) :
    encode (f.instr target26) = encodeJ f.code target26 := by
  fin_cases hf <;> rfl

theorem encode_of_immediateForm {f : ImmediateForm} (hf : f ∈ signedForms ++ hexForms) (rt rs : BitVec 5)
    (imm : BitVec 16) : encode (f.instr rt rs imm) = encodeI f.code rs rt imm := by
  fin_cases hf <;> rfl

/-! ### The signals of each shape's words (40_dispatch.md R111) -/

section

variable (m : Mnemonic) (rd rs rt shamt : BitVec 5) (code : BitVec 6) (imm : BitVec 16)

theorem signalsOf_r3 : signalsOf (.r3 m rd rs rt) (encodeR rs rt rd shamt code) =
    { fmt := 0, valid := 1, shape := 0, mnem := m.id, slotA := rd, slotB := rs, slotC := rt,
      num := shamt.setWidth 32, word := encodeR rs rt rd shamt code } := by
  simp only [signalsOf, slotASignal, slotBSignal, slotCSignal, numSignal, slice_encodeR]
  rfl

/-- The second register is the record's: `rs` for `sll` and `srl`, `rd` for `sra`. -/
theorem signalsOf_shift (b : BitVec 5) : signalsOf (.shift m rd b shamt) (encodeR rs rt rd shamt code) =
    { fmt := 0, valid := 1, shape := 1, mnem := m.id, slotA := rd, slotB := b, slotC := rt,
      num := shamt.setWidth 32, word := encodeR rs rt rd shamt code } := by
  simp only [signalsOf, slotASignal, slotBSignal, slotCSignal, numSignal, slice_encodeR]
  rfl

theorem signalsOf_jump {code : BitVec 6} (hfmt : formatOf code = .J) (target26 : BitVec 26) (target : Word) :
    signalsOf (.jump m target) (encodeJ code target26) =
      { fmt := 1, valid := 1, shape := 2, mnem := m.id, slotA := target26.extractLsb' 11 5,
        slotB := target26.extractLsb' 21 5, slotC := target26.extractLsb' 16 5, num := target,
        word := encodeJ code target26 } := by
  simp only [signalsOf, slotASignal, slotBSignal, slotCSignal, numSignal, slice_encodeJ, hfmt]
  rfl

theorem signalsOf_immS {code : BitVec 6} (hfmt : formatOf code = .I) :
    signalsOf (.immS m rt rs imm) (encodeI code rs rt imm) =
      { fmt := 2, valid := 1, shape := 3, mnem := m.id, slotA := rt, slotB := rs, slotC := rt,
        num := imm.setWidth 32, word := encodeI code rs rt imm } := by
  simp only [signalsOf, slotASignal, slotBSignal, slotCSignal, numSignal, slice_encodeI, hfmt]
  rfl

theorem signalsOf_immX {code : BitVec 6} (hfmt : formatOf code = .I) :
    signalsOf (.immX m rt rs imm) (encodeI code rs rt imm) =
      { fmt := 2, valid := 1, shape := 4, mnem := m.id, slotA := rt, slotB := rs, slotC := rt,
        num := imm.setWidth 32, word := encodeI code rs rt imm } := by
  simp only [signalsOf, slotASignal, slotBSignal, slotCSignal, numSignal, slice_encodeI, hfmt]
  rfl

end

/-! ### The statements -/

/-- Settles O20: the record, its template and its signals, for the word of each of the 20 forms. -/
theorem threeRegisterInstructionsComplete : Obligations.ThreeRegisterInstructionsComplete := by
  intro f hf rd rs rt shamt s
  have hmem : f ∈ rsShiftForms ++ threeRegisterForms := List.mem_append_right _ hf
  rw [exec_eq_emit, recordAt_of_threeRegisterForm hf, encode_of_registerForm hmem, emit_eq_afterDecode, render_r3,
    signalsOf_r3, form_text_eq_name hmem, registerForm_id_eq f hmem, encodeR]

/-- Settles O21: the second register shown is `rs`; `rt` is carried in `slot_c` alone. -/
theorem sllSrlComplete : Obligations.SllSrlComplete := by
  intro f hf rd rs rt shamt s
  have hmem : f ∈ rsShiftForms ++ threeRegisterForms := List.mem_append_left _ hf
  rw [exec_eq_emit, recordAt_of_rsShiftForm hf, encode_of_registerForm hmem, emit_eq_afterDecode, render_shift,
    signalsOf_shift, form_text_eq_name hmem, registerForm_id_eq f hmem, encodeR]

/-- Settles O22: the second register shown is `rd`; `rt` is carried in `slot_c` alone. -/
theorem sraCompletes : Obligations.SraCompletes := by
  intro rd rs rt shamt s
  rw [exec_eq_emit, Instr.recordAt, encode, emit_eq_afterDecode, render_shift, signalsOf_shift, encodeR]
  rfl

/-- Settles O23: the target has the region of the `pc` port, which is not written. -/
theorem jumpsComplete : Obligations.JumpsComplete := by
  intro f hf target26 s
  rw [exec_eq_emit, recordAt_of_jumpForm hf, encode_of_jumpForm hf, jumpTarget_eq_concat, emit_eq_afterDecode, render_jump,
    signalsOf_jump _ (formatOf_of_jumpForm f hf), jumpForm_text_eq_name f hf, jumpForm_id_eq f hf, encodeJ]

/-- Settles O24: the record, its template and its signals, for the words of `addi` and `slti`. -/
theorem signedImmediateInstructionsComplete : Obligations.SignedImmediateInstructionsComplete := by
  intro f hf rt rs imm s
  have hmem : f ∈ signedForms ++ hexForms := List.mem_append_left _ hf
  rw [exec_eq_emit, recordAt_of_signedForm hf, encode_of_immediateForm hmem, emit_eq_afterDecode, render_immS,
    signalsOf_immS _ _ _ _ (formatOf_of_immediateForm f hmem), immediateForm_text_eq_name f hmem,
    immediateForm_id_eq f hmem, encodeI]

/-- Settles O25: the record, its template and its signals, for the word of each of the 16 forms. -/
theorem hexImmediateInstructionsComplete : Obligations.HexImmediateInstructionsComplete := by
  intro f hf rt rs imm s
  have hmem : f ∈ signedForms ++ hexForms := List.mem_append_right _ hf
  rw [exec_eq_emit, recordAt_of_hexForm hf, encode_of_immediateForm hmem, emit_eq_afterDecode, render_immX,
    signalsOf_immX _ _ _ _ (formatOf_of_immediateForm f hmem), immediateForm_text_eq_name f hmem,
    immediateForm_id_eq f hmem, encodeI]

/-- Settles O26: every instruction drives the outputs, and driving the outputs changes nothing else but the listing. -/
theorem everyInstructionCompletesWithFrame : Obligations.EveryInstructionCompletesWithFrame :=
  fun i s => ⟨_, exec_eq_emit i s, emit_rom .., emit_w .., emit_pc .., emit_inputs .., emit_listing ..⟩

end Sys2Proof.Machine
end

section
/-! PROOFS. The statements about what a step, a run and a decode of a presented word do. -/

namespace Sys2Proof.Machine

/-! ### The pc and the record -/

theorem jumpTarget_of_region_eq (target26 : BitVec 26) {pc pc' : Word} (h : pc.extractLsb' 28 4 = pc'.extractLsb' 28 4) :
    jumpTarget target26 pc = jumpTarget target26 pc' := by
  rw [jumpTarget_eq_concat, jumpTarget_eq_concat, h]

/-- An instruction reads its address only through the jump target. -/
theorem recordAt_of_region_eq (i : Instr) {pc pc' : Word} (h : pc.extractLsb' 28 4 = pc'.extractLsb' 28 4) :
    i.recordAt pc = i.recordAt pc' := by
  cases i
  case j target26 | jal target26 => exact congrArg _ (jumpTarget_of_region_eq target26 h)
  all_goals rfl

theorem decodedRecord_of_region_eq (w : Word) {pc pc' : Word} (h : pc.extractLsb' 28 4 = pc'.extractLsb' 28 4) :
    decodedRecord w pc = decodedRecord w pc' := by
  simp only [decodedRecord_eq_recordOfVerdict]
  cases decode w with
  | ok i => exact recordAt_of_region_eq i h
  | error _ => rfl

/-- `DecodeR` and `DecodeI` do not take the pc. -/
theorem decodedRecord_of_not_jump {w : Word} (h2 : (slice w).op ≠ 2) (h3 : (slice w).op ≠ 3) (pc pc' : Word) :
    decodedRecord w pc = decodedRecord w pc' := by
  have hop : bitsAt w 26 6 = (slice w).op.toNat := bitsAt_eq w 26 6
  have hjump : ¬ (bitsAt w 26 6 = 2 ∨ bitsAt w 26 6 = 3) := by
    rw [hop]
    exact not_or.2 ⟨mt (BitVec.toNat_inj (y := 2)).1 h2, mt (BitVec.toNat_inj (y := 3)).1 h3⟩
  simp only [decodedRecord, if_neg hjump]

/-! ### The signals of an invalid word -/

theorem fmtSignal_of_invalidWord {w : Word} (h : invalidWord w = true) :
    fmtSignal (formatOf (slice w).op) = if (slice w).op = 0 then 0 else 2 := by
  obtain ⟨hop, -⟩ | hop := invalidWord_iff.1 h
  · simp [hop, formatOf, fmtSignal]
  · have hfmt := formatOf_of_mem_invalidOpcodes _ hop
    rw [hfmt, if_neg (formatOf_eq_I.1 hfmt).1, fmtSignal]

theorem signalsOf_invalid {w : Word} (h : invalidWord w = true) : signalsOf (.invalid w) w =
    { fmt := if (slice w).op = 0 then 0 else 2, valid := 0, shape := 5, mnem := 63, slotA := (slice w).rd,
      slotB := (slice w).rs, slotC := (slice w).rt, num := w, word := w } := by
  rw [signalsOf, fmtSignal_of_invalidWord h]
  rfl

/-! ### The words of `sra` -/

/-- Two words that agree under a mask agree in every field where the mask is all ones. -/
theorem extractLsb'_eq_of_and_eq {w w' mask : Word} {lo len : Nat} (hmask : mask.extractLsb' lo len = BitVec.allOnes len)
    (h : w' &&& mask = w &&& mask) : w'.extractLsb' lo len = w.extractLsb' lo len :=
  (extractLsb'_eq_of_masked hmask h).trans (extractLsb'_eq_of_masked hmask rfl).symm

theorem sra_row_iff {w : Word} : w &&& 0xFC00003F#32 = 0x00000003#32 ↔ (slice w).op = 0 ∧ (slice w).funct = 3 := by
  refine ⟨fun h => ⟨op_eq_zero_of_masked (code := 3) h, funct_eq_of_masked h⟩, fun ⟨hop, hfunct⟩ => ?_⟩
  rw [← encodeR_slice hop, encodeR_masked, hfunct]
  rfl

theorem decodePorts_of_sra {s : State} (hop : (slice s.w).op = 0) (hfunct : (slice s.w).funct = 3) :
    decodePorts s = .next (emit (.shift .sra (slice s.w).rd (slice s.w).rd (slice s.w).shamt) s.w s) := by
  rw [decodePorts_eq_emit_decodedRecord, decodedRecord_of_sra s.pc hop hfunct]

/-! ### A run -/

theorem run_succ_of_step {k : Nat} {s s' : State} (h : step s = .next s') :
    Host.Core.run core (k + 1) s = Host.Core.run core k s' := by
  simp only [Host.Core.run, core, h]

/-- A run over the pairs `l` that the caller has still to present takes the line of each, in order. -/
theorem run_lists_lines (l : List Input) (s : State) (h : s.inputs = l) :
    ∃ t, Host.Core.run core l.length s = .next t
      ∧ t.listing = s.listing ++ l.map (fun i => render s.rom (decodedRecord i.w i.pc))
      ∧ t.inputs = [] ∧ t.rom = s.rom := by
  induction l generalizing s with
  | nil => exact ⟨s, rfl, by simp, h, rfl⟩
  | cons i rest ih =>
    obtain ⟨t, hrun, hlisting, hinputs, hrom⟩ := ih (emit (decodedRecord i.w i.pc) i.w (onPorts s i.w i.pc rest)) rfl
    exact ⟨t, (run_succ_of_step (step_eq_emit h)).trans hrun, by simp [hlisting], hinputs, hrom⟩

/-! ### The caller -/

theorem length_feed (pc : Word) (ws : List Word) : (feed pc ws).length = ws.length := by
  induction ws generalizing pc with
  | nil => rfl
  | cons w ws ih => rw [feed, List.length_cons, List.length_cons, ih]

theorem getElem?_feed (pc : Word) (ws : List Word) (k : Nat) :
    (feed pc ws)[k]? = ws[k]?.map fun w => ⟨w, pc + BitVec.ofNat 32 (4 * k)⟩ := by
  induction ws generalizing pc k with
  | nil => rfl
  | cons w ws ih =>
    cases k with
    | zero => simp [feed]
    | succ k =>
      have hpc : pc + 4#32 + BitVec.ofNat 32 (4 * k) = pc + BitVec.ofNat 32 (4 * (k + 1)) := by
        rw [Nat.mul_succ, BitVec.ofNat_add, BitVec.add_assoc, BitVec.add_comm 4#32]
      simp [feed, ih, hpc]

/-- A concatenation's value has the left part above the right part. -/
theorem toNat_append_eq_add {m n : Nat} (x : BitVec m) (y : BitVec n) : (x ++ y).toNat = 2 ^ n * x.toNat + y.toNat := by
  rw [BitVec.toNat_append, ← Nat.shiftLeft_add_eq_or_of_lt y.isLt, Nat.shiftLeft_eq, Nat.mul_comm]

/-! ### The statements -/

/-- Settles O9: presenting the pair puts it on the ports, and what decodes there is what is run. -/
theorem stepRunsTheDecodedInstruction : Obligations.StepRunsTheDecodedInstruction := by
  intro s w pc rest h
  refine ⟨step_of_inputs_eq_cons h, fun i hi => ?_⟩
  have hport : decode (onPorts s w pc rest).w = .ok i := hi
  rw [step_of_inputs_eq_cons h, decodePorts, hport]

/-- Settles O10: the record of a word of the invalid space is the invalid one. -/
theorem invalidWordReports : Obligations.InvalidWordReports := by
  intro s w pc rest h hinvalid
  rw [step_eq_emit h, decodedRecord_of_invalidWord pc hinvalid, emit_eq_afterDecode, signalsOf_invalid hinvalid]
  rfl

/-- Settles O12: the step idles. -/
theorem nothingPresentedChangesNothing : Obligations.NothingPresentedChangesNothing :=
  fun _ => step_of_inputs_eq_nil

/-- Settles O13: with a pair presented, the line listed is the line driven. -/
theorem everyStepAnswersOneLine : Obligations.EveryStepAnswersOneLine := by
  intro s
  obtain ⟨hnil, hstep⟩ | ⟨w, pc, rest, h, -⟩ := step_cases s
  · exact ⟨s, hstep, absurd hnil⟩
  · exact ⟨_, step_eq_emit h, fun _ => emit_listing ..⟩

/-- Settles O14: the instruction's record is the one of the spec's `Decode`, and its encoding is the word presented. -/
theorem stepIsDecodeThenRender : Obligations.StepIsDecodeThenRender := by
  intro s w pc rest h
  rw [step_eq_emit h, emit_eq_afterDecode, onPorts_rom]

/-- Settles O15, by induction on the pairs to present. -/
theorem runListsLinesInOrder : Obligations.RunListsLinesInOrder :=
  fun s => run_lists_lines s.inputs s rfl

/-- Settles O17: the record is the same at both addresses, and line and signals come from the record, the word and the
ROM. -/
theorem pcMattersOnlyForTheJumpRegion : Obligations.PcMattersOnlyForTheJumpRegion := by
  intro s s' w pc pc' rest rest' h h' hrom hpc
  have hrecord : decodedRecord w pc = decodedRecord w pc' := by
    obtain hregion | ⟨h2, h3⟩ := hpc
    · exact decodedRecord_of_region_eq w hregion
    · exact decodedRecord_of_not_jump h2 h3 pc pc'
  exact ⟨_, _, step_eq_emit h, step_eq_emit h', hrecord, by simp [hrecord, hrom], by simp [hrecord]⟩

/-- Settles O18, by induction on the words. -/
theorem feedAdvancesPcByFour : Obligations.FeedAdvancesPcByFour :=
  fun pc ws => ⟨length_feed pc ws, fun k w h => by rw [getElem?_feed, h, Option.map_some]⟩

/-- Settles O19: in each order the bytes are concatenated from the highest down. -/
theorem assembleFollowsByteOrder : Obligations.AssembleFollowsByteOrder := by
  intro b0 b1 b2 b3
  constructor <;> rw [assemble, toNat_append_eq_add, toNat_append_eq_add, toNat_append_eq_add] <;> omega

/-- Settles O29: the row fixes `op` and `funct`, and the line reads `rd` and `shamt`, all kept by the second mask. -/
theorem sraWordsPrintRdTwice : Obligations.SraWordsPrintRdTwice := by
  simp only [Obligations.SraWordsPrintRdTwice, sra_row_iff]
  refine ⟨fun s ⟨hop, hfunct⟩ => ⟨_, decodePorts_of_sra hop hfunct, rfl, render_shift ..⟩, ?_⟩
  rintro s w' ⟨hop, hfunct⟩ hkept
  have hop' : (slice w').op = (slice s.w).op := extractLsb'_eq_of_and_eq (by decide) hkept
  have hfunct' : (slice w').funct = (slice s.w).funct := extractLsb'_eq_of_and_eq (by decide) hkept
  have hrd : (slice w').rd = (slice s.w).rd := extractLsb'_eq_of_and_eq (by decide) hkept
  have hshamt : (slice w').shamt = (slice s.w).shamt := extractLsb'_eq_of_and_eq (by decide) hkept
  exact ⟨_, _, decodePorts_of_sra hop hfunct, decodePorts_of_sra (hop'.trans hop) (hfunct'.trans hfunct),
    by simp [hrd, hshamt]⟩

/-- Settles O31: the target has the region of its own address above and two zero bits below. -/
theorem jumpTargetStaysInItsRegion : Obligations.JumpTargetStaysInItsRegion := by
  intro s w pc rest h hop
  obtain ⟨f, hf, hcode⟩ : ∃ f ∈ jumpForms, (slice w).op = f.code := by
    simpa [jumpForms, slice] using hop
  rw [step_eq_emit h, decodedRecord_of_jumpForm pc hf hcode]
  exact ⟨_, _, _, rfl, rfl, jumpTarget_region .., jumpTarget_aligned ..⟩

/-- Settles O32: the record is the signed one, and its one line is the line driven. -/
theorem signedImmediateWordsPrintDecimal : Obligations.SignedImmediateWordsPrintDecimal := by
  intro f hf s w pc rest h hop
  rw [step_eq_emit h, decodedRecord_of_signedForm pc hf hop, immediateForm_text_eq_name f (List.mem_append_left _ hf)]
  exact ⟨_, rfl, rfl, render_immS .., emit_listing ..⟩

/-- Settles O33: the record is the hex one for each of the 16 forms. -/
theorem hexImmediateWordsPrintHex : Obligations.HexImmediateWordsPrintHex := by
  intro f hf s w pc rest h hop
  rw [step_eq_emit h, decodedRecord_of_hexForm pc hf hop, immediateForm_text_eq_name f (List.mem_append_right _ hf)]
  exact ⟨_, rfl, rfl, render_immX ..⟩

end Sys2Proof.Machine
end

section
/-! PROOFS. The statements about the number renderers, the ROM names at power-up, and reset. -/

namespace Sys2Proof.Machine

/-! ### Numerals -/

theorem numeralValue_singleton (base : Nat) (c : Char) : numeralValue base [c] = digitValue c := by
  simp [numeralValue]

theorem numeralValue_concat (base : Nat) (t : Text) (c : Char) :
    numeralValue base (t ++ [c]) = base * numeralValue base t + digitValue c := by
  simp [numeralValue]

theorem digitChar_mem {base n : Nat} (hbase : base ≤ 16) (h : n < base) :
    digitChar n ∈ "0123456789abcdef".toList.take base := by
  have hget : "0123456789abcdef".toList[n]? = some (digitChar n) := by
    have : n < 16 := by omega
    interval_cases n <;> rfl
  exact List.mem_iff_getElem?.2 ⟨n, by rw [List.getElem?_take_of_lt h, hget]⟩

theorem isNumeral_singleton {base n : Nat} (hbase : base ≤ 16) (h : n < base) : IsNumeral base [digitChar n] := by
  refine ⟨by simp, fun c hc => ?_, by simp⟩
  exact List.mem_singleton.1 hc ▸ digitChar_mem hbase h

section

variable {base : Nat} (hbase : 2 ≤ base) (hbase' : base ≤ 16)
include hbase hbase'

/-- With fuel for its digits, the spelling of a number denotes it. -/
theorem numeralValue_digits {fuel n : Nat} (h : n < base ^ fuel) : numeralValue base (digits base fuel n) = n := by
  induction fuel generalizing n with
  | zero => simp_all [digits, numeralValue]
  | succ fuel ih =>
    by_cases hn : n < base
    · rw [digits_of_lt fuel hn, numeralValue_singleton, digitValue_digitChar (by omega)]
    · have hquot : n / base < base ^ fuel := Nat.div_lt_of_lt_mul (by rwa [← Nat.pow_succ'])
      have hmod : n % base < base := Nat.mod_lt n (by omega)
      rw [digits_of_le fuel (by omega), numeralValue_concat, ih hquot, digitValue_digitChar (by omega), Nat.div_add_mod]

/-- With fuel for its digits, the spelling of a number is a numeral: what stands before the last digit spells a number
that is not 0, so it does not begin with a zero. -/
theorem isNumeral_digits {fuel n : Nat} (h : n < base ^ (fuel + 1)) : IsNumeral base (digits base (fuel + 1) n) := by
  induction fuel generalizing n with
  | zero =>
    have hn : n < base := by simpa using h
    rw [digits_of_lt 0 hn]
    exact isNumeral_singleton hbase' hn
  | succ fuel ih =>
    by_cases hn : n < base
    · rw [digits_of_lt (fuel + 1) hn]
      exact isNumeral_singleton hbase' hn
    · have hquot : n / base < base ^ (fuel + 1) := Nat.div_lt_of_lt_mul (by rwa [← Nat.pow_succ'])
      obtain ⟨hne, hmem, hzero⟩ := ih hquot
      have hhead : (digits base (fuel + 1) (n / base)).head? ≠ some '0' := by
        intro h0
        have hvalue := numeralValue_digits hbase hbase' hquot
        rw [hzero h0, numeralValue_singleton] at hvalue
        have : 0 < n / base := Nat.div_pos (by omega) (by omega)
        exact absurd hvalue (by simp [digitValue]; omega)
      have hmod : n % base < base := Nat.mod_lt n (by omega)
      rw [digits_of_le (fuel + 1) (by omega)]
      refine ⟨by simp, ?_, ?_⟩
      · rintro c hc
        obtain hc | hc := List.mem_append.1 hc
        · exact hmem c hc
        · exact List.mem_singleton.1 hc ▸ digitChar_mem hbase' hmod
      · rw [List.head?_append_of_ne_nil _ hne]
        exact fun h0 => absurd h0 hhead

/-- `n + 1` digits are enough for `n` bits, so the spelling of their value is its numeral. -/
theorem digits_spell {n : Nat} (v : BitVec n) :
    IsNumeral base (digits base (n + 1) v.toNat) ∧ numeralValue base (digits base (n + 1) v.toNat) = v.toNat := by
  have hfuel : v.toNat < base ^ (n + 1) :=
    calc v.toNat < 2 ^ n := v.isLt
      _ ≤ base ^ n := Nat.pow_le_pow_left hbase n
      _ ≤ base ^ (n + 1) := Nat.pow_le_pow_right (by omega) (Nat.le_succ n)
  exact ⟨isNumeral_digits hbase hbase' hfuel, numeralValue_digits hbase hbase' hfuel⟩

end

/-- Settles O34: the spelling in base 16. -/
theorem hexStrSpellsTheValue : Obligations.HexStrSpellsTheValue := fun _ => digits_spell (by decide) (by decide)

/-- Settles O35: the spelling in base 10. -/
theorem decStrSpellsTheValue : Obligations.DecStrSpellsTheValue := fun _ => digits_spell (by decide) (by decide)

/-! ### The signed reading -/

theorem sDecStr_of_neg {v : BitVec 16} (h : v.toInt < 0) : sDecStr v = '-' :: decStr (-v) := by
  rw [sDecStr, s16_eq_toInt, if_pos h]

theorem sDecStr_of_nonneg {v : BitVec 16} (h : 0 ≤ v.toInt) : sDecStr v = decStr v := by
  rw [sDecStr, s16_eq_toInt, if_neg (by omega)]

/-- Settles O36: the two's complement of a negative reading is its magnitude. -/
theorem sDecStrSpellsTheSignedValue : Obligations.SDecStrSpellsTheSignedValue := by
  intro v
  constructor
  · intro h
    obtain ⟨hnumeral, hvalue⟩ := decStrSpellsTheValue 16 (-v)
    have hmagnitude : ((-v).toNat : Int) = -v.toInt := by
      rw [BitVec.toInt_eq_toNat_cond] at h ⊢
      split at h <;> bv_omega
    exact ⟨_, sDecStr_of_neg h, hnumeral, by rw [hvalue, hmagnitude]⟩
  · intro h
    obtain ⟨hnumeral, hvalue⟩ := decStrSpellsTheValue 16 v
    have hmagnitude : (v.toNat : Int) = v.toInt := by
      rw [BitVec.toInt_eq_toNat_cond] at h ⊢
      split at h <;> bv_omega
    rw [sDecStr_of_nonneg h]
    exact ⟨hnumeral, by rw [hvalue, hmagnitude]⟩

/-! ### The ROM -/

/-- Settles O37: each template reads the ROM through `RegStr` of the registers the record names. -/
theorem renderReadsAtMostThreeEntries : Obligations.RenderReadsAtMostThreeEntries := by
  refine fun d rom rom' => ⟨by cases d <;> simp [recordRegisters], fun h => ?_⟩
  have hreg : ∀ i ∈ recordRegisters d, regStr rom i = regStr rom' i := fun i hi => congrArg ('$' :: ·) (h i hi)
  cases d <;> simp_all [recordRegisters, render]

/-- The 27 entries that `REG_NAMES` decides (10_state.md R22). -/
def openEntries : List RegIdx :=
  [1, 2, 6, 7, 8, 9, 10, 11, 12, 13, 14, 15, 16, 17, 18, 19, 20, 21, 22, 23, 24, 25, 26, 27, 28, 29, 30]

theorem mem_openEntries : ∀ i : RegIdx, i ∉ ([0, 3, 4, 5, 31] : List RegIdx) → i ∈ openEntries := by decide

/-- An entry that R21 does not fix is taken from `REG_NAMES`. -/
theorem romRead_installNames (names : RegNames) {i : RegIdx} (hi : i ∉ ([0, 3, 4, 5, 31] : List RegIdx)) :
    romRead (installNames names) i = names.get i.toFin := by
  have hopen := mem_openEntries i hi
  fin_cases hopen <;> rfl

/-- A ROM that reads as a table says is that table. -/
theorem romNames_eq_of_romRead {rom : Rom} {names : RegNames} (h : ∀ i : RegIdx, romRead rom i = names.get i.toFin) :
    romNames rom = names := by
  ext1 k hk
  exact h (BitVec.ofFin ⟨k, hk⟩)

theorem romNames_installNames {names : RegNames} (h : romHoldsFixedNames names = true) :
    romNames (installNames names) = names := by
  refine romNames_eq_of_romRead fun i => ?_
  by_cases hi : i ∈ ([0, 3, 4, 5, 31] : List RegIdx)
  · obtain ⟨⟨⟨⟨h0, h3⟩, h4⟩, h5⟩, h31⟩ := by simpa [romHoldsFixedNames] using h
    obtain rfl | rfl | rfl | rfl | rfl := by simpa using hi
    exacts [h0.symm, h3.symm, h4.symm, h5.symm, h31.symm]
  · exact romRead_installNames names hi

theorem romNamesAscii_defaultRegNames : RomNamesAscii (installNames defaultRegNames) :=
  fun i => plainAscii_of_all (by revert i; decide)

/-- Settles O47: the lemmas about power-up, every record and every line, at the reset ports and names. -/
theorem resetMeetsTheInvariants : Obligations.ResetMeetsTheInvariants :=
  ⟨powerUp_outputsFollowInputs .., fixedNames _, decodedRecord_wellFormed 0 0,
    ⟨romNamesAscii_defaultRegNames, oneAsciiLine_render romNamesAscii_defaultRegNames (decodedRecord 0 0),
      by simp [State.reset, State.powerUp]⟩,
    rfl, rfl, rfl, rfl⟩

/-- Settles O48: the open entries are taken, and the fixed ones are those of a table that holds them. -/
theorem powerUpTakesRegNames : Obligations.PowerUpTakesRegNames :=
  fun names _ _ => ⟨fun _ => romRead_installNames names, romNames_installNames⟩

end Sys2Proof.Machine
end

section
/-! PROOFS. The statements about the signals (40_dispatch.md §4, R111). -/

namespace Sys2Proof.Machine

/-- Each shape's mnemonic, registers and number stand on the wires that the shape says. -/
theorem recordOfSignals_signalsOf (d : Decoded) (w : Word) : recordOfSignals (signalsOf d w) = some d := by
  cases d with
  | r3 | jump => simp [recordOfSignals, signalsOf, Decoded.shapeOf, shapeSignal, mnemSignal, slotASignal, slotBSignal,
      slotCSignal, numSignal, mnemonicOfId_id]
  | shift | immS | immX => simp [recordOfSignals, signalsOf, Decoded.shapeOf, shapeSignal, mnemSignal, slotASignal,
      slotBSignal, numSignal, mnemonicOfId_id, BitVec.setWidth_setWidth_of_le]
  | invalid => rfl

/-! ### The row of each signal, for the record of a word -/

theorem fmtSignal_formatOf (op : BitVec 6) :
    fmtSignal (formatOf op) = if op = 0 then 0 else if op = 0x02 ∨ op = 0x03 then 1 else 2 := by
  unfold formatOf
  split_ifs <;> rfl

theorem validSignal_recordAt (i : Instr) (pc : Word) : validSignal (i.recordAt pc) = 1 := by
  cases i <;> rfl

section

variable (w pc : Word)

theorem validSignal_decodedRecord :
    validSignal (decodedRecord w pc) = if invalidWord w = true then 0 else 1 := by
  split_ifs with h
  · rw [decodedRecord_of_invalidWord pc h, validSignal]
  · obtain ⟨i, hi⟩ := exists_decode_of_not_invalidWord h
    rw [decodedRecord_of_decode_eq_ok pc hi, validSignal_recordAt]

/-- The wires of a valid word: the first register is `rt` in the immediate format and `rd` else, the third is `rt`, and
the number is the one of the format. -/
theorem wires_of_valid (h : ¬ invalidWord w = true) :
    slotASignal (decodedRecord w pc) w = (if fmtSignal (formatOf (slice w).op) = 2 then (slice w).rt else (slice w).rd)
      ∧ slotCSignal (decodedRecord w pc) w = (slice w).rt
      ∧ numSignal (decodedRecord w pc) w =
          if fmtSignal (formatOf (slice w).op) = 0 then (slice w).shamt.setWidth 32
          else if fmtSignal (formatOf (slice w).op) = 1 then jumpTarget (slice w).target26 pc
          else (slice w).imm.setWidth 32 := by
  cases wordClass w with
  | invalid hinvalid => exact absurd hinvalid h
  | sra hop hfunct =>
    rw [decodedRecord_of_sra pc hop hfunct, formatOf_eq_R.2 hop]
    exact ⟨rfl, rfl, rfl⟩
  | rsShift f hf hop hfunct =>
    rw [decodedRecord_of_rsShiftForm pc hf hop hfunct, formatOf_eq_R.2 hop]
    exact ⟨rfl, rfl, rfl⟩
  | threeRegister f hf hop hfunct =>
    rw [decodedRecord_of_threeRegisterForm pc hf hop hfunct, formatOf_eq_R.2 hop]
    exact ⟨rfl, rfl, rfl⟩
  | jump f hf hop =>
    rw [decodedRecord_of_jumpForm pc hf hop, hop, formatOf_of_jumpForm f hf]
    exact ⟨rfl, rfl, rfl⟩
  | signed f hf hop =>
    rw [decodedRecord_of_signedForm pc hf hop, hop, formatOf_of_immediateForm f (List.mem_append_left _ hf)]
    exact ⟨rfl, rfl, rfl⟩
  | hex f hf hop =>
    rw [decodedRecord_of_hexForm pc hf hop, hop, formatOf_of_immediateForm f (List.mem_append_right _ hf)]
    exact ⟨rfl, rfl, rfl⟩

/-- The second register is `rs` of the word, but for `sra`. -/
theorem slotBSignal_decodedRecord :
    slotBSignal (decodedRecord w pc) w =
      if w &&& 0xFC00003F#32 = 0x00000003#32 then (slice w).rd else (slice w).rs := by
  split_ifs with h
  · obtain ⟨hop, hfunct⟩ := sra_row_iff.1 h
    rw [decodedRecord_of_sra pc hop hfunct, slotBSignal]
  · cases wordClass w with
    | invalid hinvalid => rw [decodedRecord_of_invalidWord pc hinvalid, slotBSignal]
    | sra hop hfunct => exact absurd (sra_row_iff.2 ⟨hop, hfunct⟩) h
    | rsShift f hf hop hfunct => rw [decodedRecord_of_rsShiftForm pc hf hop hfunct, slotBSignal]
    | threeRegister f hf hop hfunct => rw [decodedRecord_of_threeRegisterForm pc hf hop hfunct, slotBSignal]
    | jump f hf hop => rw [decodedRecord_of_jumpForm pc hf hop, slotBSignal]
    | signed f hf hop => rw [decodedRecord_of_signedForm pc hf hop, slotBSignal]
    | hex f hf hop => rw [decodedRecord_of_hexForm pc hf hop, slotBSignal]

theorem slotASignal_decodedRecord :
    slotASignal (decodedRecord w pc) w =
      if fmtSignal (formatOf (slice w).op) = 2 ∧ invalidWord w = false then (slice w).rt else (slice w).rd := by
  by_cases h : invalidWord w = true
  · rw [decodedRecord_of_invalidWord pc h, if_neg (by simp [h]), slotASignal]
  · obtain ⟨hslotA, -, -⟩ := wires_of_valid w pc h
    simp [hslotA, h]

theorem slotCSignal_decodedRecord : slotCSignal (decodedRecord w pc) w = (slice w).rt := by
  by_cases h : invalidWord w = true
  · rw [decodedRecord_of_invalidWord pc h, slotCSignal]
  · obtain ⟨-, hslotC, -⟩ := wires_of_valid w pc h
    exact hslotC

theorem numSignal_decodedRecord :
    numSignal (decodedRecord w pc) w =
      if invalidWord w = true then w
      else if fmtSignal (formatOf (slice w).op) = 0 then (slice w).shamt.setWidth 32
      else if fmtSignal (formatOf (slice w).op) = 1 then jumpTarget (slice w).target26 pc
      else (slice w).imm.setWidth 32 := by
  by_cases h : invalidWord w = true
  · rw [decodedRecord_of_invalidWord pc h, if_pos h, numSignal]
  · obtain ⟨-, -, hnum⟩ := wires_of_valid w pc h
    rw [if_neg h, hnum]

end

/-! ### The statements -/

/-- Settles O39: the record driven is the one its signals carry. -/
theorem signalsCarryTheRecord : Obligations.SignalsCarryTheRecord :=
  fun _ w pc _ h => ⟨_, step_eq_emit h, recordOfSignals_signalsOf (decodedRecord w pc) w⟩

/-- Settles O40: `shape` and `mnem` by the record of each class of words, every other signal by its row above. -/
theorem signalsFollowTheTable : Obligations.SignalsFollowTheTable := by
  intro s w pc rest h
  refine ⟨_, step_eq_emit h, fmtSignal_formatOf _, validSignal_decodedRecord w pc, ?threeRegister, ?rsShift, ?sra, ?jump,
    ?signed, ?hex, ?invalid, slotASignal_decodedRecord w pc, slotBSignal_decodedRecord w pc,
    slotCSignal_decodedRecord w pc, ?num, rfl⟩ <;> simp only [emit_signals]
  case threeRegister =>
    intro f hf hop hfunct
    rw [decodedRecord_of_threeRegisterForm pc hf hop hfunct, registerForm_id_eq f (List.mem_append_right _ hf)]
    exact ⟨rfl, rfl⟩
  case rsShift =>
    intro f hf hop hfunct
    rw [decodedRecord_of_rsShiftForm pc hf hop hfunct, registerForm_id_eq f (List.mem_append_left _ hf)]
    exact ⟨rfl, rfl⟩
  case sra =>
    intro hop hfunct
    rw [decodedRecord_of_sra pc hop hfunct]
    exact ⟨rfl, rfl⟩
  case jump =>
    intro f hf hop
    rw [decodedRecord_of_jumpForm pc hf hop, jumpForm_id_eq f hf]
    exact ⟨rfl, rfl⟩
  case signed =>
    intro f hf hop
    rw [decodedRecord_of_signedForm pc hf hop, immediateForm_id_eq f (List.mem_append_left _ hf)]
    exact ⟨rfl, rfl⟩
  case hex =>
    intro f hf hop
    rw [decodedRecord_of_hexForm pc hf hop, immediateForm_id_eq f (List.mem_append_right _ hf)]
    exact ⟨rfl, rfl⟩
  case invalid =>
    intro hinvalid
    rw [decodedRecord_of_invalidWord pc hinvalid]
    exact ⟨rfl, rfl⟩
  case num =>
    rw [← jumpTarget_target26]
    exact numSignal_decodedRecord w pc

end Sys2Proof.Machine
end

section
/-! PROOFS. The statement of 40_dispatch.md R112: different records give different lines. -/

namespace Sys2Proof.Machine

/-! ### The first word of a line is its mnemonic -/

/-- The mnemonic of a record, none for the invalid one. -/
def recordMnemonic : Decoded → Option Mnemonic
  | .r3 m _ _ _ | .shift m _ _ _ | .jump m _ | .immS m _ _ _ | .immX m _ _ _ => some m
  | .invalid _ => none

/-- What stands before the first space of a record's line. -/
def firstWord : Option Mnemonic → Text
  | some m => m.name
  | none => ['i', 'n', 'v', 'a', 'l', 'i', 'd']

/-- The 43 mnemonics, by shape (40_dispatch.md R101). -/
def allMnemonics : List Mnemonic :=
  .sll :: .srl :: .sra :: .j :: .jal :: .addi :: .slti :: (threeRegisterMnemonics ++ hexImmediateMnemonics)

/-- The mnemonic read back from the first word of a line. -/
def mnemonicOfWord (t : Text) : Option Mnemonic := allMnemonics.find? fun m => m.name == t

theorem mnemonicOfWord_firstWord (k : Option Mnemonic) : mnemonicOfWord (firstWord k) = k := by
  cases k with
  | none => rfl
  | some m => cases m <;> rfl

theorem firstWord_injective : Function.Injective firstWord :=
  Function.LeftInverse.injective mnemonicOfWord_firstWord

/-- Two texts that agree, cut at the first occurrence of one character, agree on both sides of it. -/
theorem eq_and_eq_of_append_cons_eq {c : Char} {x x' r r' : Text} (hx : c ∉ x) (hx' : c ∉ x')
    (h : x ++ c :: r = x' ++ c :: r') : x = x' ∧ r = r' := by
  induction x generalizing x' with
  | nil =>
    cases x' with
    | nil => exact ⟨rfl, List.tail_eq_of_cons_eq h⟩
    | cons a' x' => exact absurd (List.head_eq_of_cons_eq h ▸ List.mem_cons_self) hx'
  | cons a x ih =>
    cases x' with
    | nil => exact absurd (List.head_eq_of_cons_eq h ▸ List.mem_cons_self) hx
    | cons a' x' =>
      obtain ⟨rfl, hr⟩ := ih (List.not_mem_of_not_mem_cons hx) (List.not_mem_of_not_mem_cons hx')
        (List.tail_eq_of_cons_eq h)
      exact ⟨by rw [List.head_eq_of_cons_eq h], hr⟩

theorem space_notMem_firstWord (k : Option Mnemonic) : ' ' ∉ firstWord k := by
  cases k with
  | none => decide
  | some m => cases m <;> decide

theorem render_eq_firstWord_append (rom : Rom) (d : Decoded) :
    ∃ rest, render rom d = firstWord (recordMnemonic d) ++ ' ' :: rest := by
  cases d with
  | invalid word => exact ⟨invalidPrefix.drop 8 ++ hexStr word ++ ['\n'], rfl⟩
  | _ => simp [render, threeOperandLine, firstWord, recordMnemonic]

theorem recordMnemonic_eq_of_render_eq {rom : Rom} {d d' : Decoded} (h : render rom d = render rom d') :
    recordMnemonic d = recordMnemonic d' := by
  obtain ⟨rest, hd⟩ := render_eq_firstWord_append rom d
  obtain ⟨rest', hd'⟩ := render_eq_firstWord_append rom d'
  rw [hd, hd'] at h
  exact firstWord_injective (eq_and_eq_of_append_cons_eq (space_notMem_firstWord _) (space_notMem_firstWord _) h).1

/-! ### The mnemonic decides the shape -/

/-- The one shape in which a decode may build a record of the mnemonic (40_dispatch.md R101). -/
def shapeOfMnemonic (m : Mnemonic) : Shape :=
  if m ∈ threeRegisterMnemonics then .r3
  else if m ∈ hexImmediateMnemonics then .immX
  else if m ∈ [.j, .jal] then .jump
  else if m ∈ [.addi, .slti] then .immS
  else .shift

theorem shapeOfMnemonic_of_hexImmediate : ∀ m ∈ hexImmediateMnemonics, shapeOfMnemonic m = .immX := by decide

theorem shapeOf_of_wellFormed {d : Decoded} (h : d.wellFormed = true) :
    d.shapeOf = (recordMnemonic d).elim .invalid shapeOfMnemonic := by
  cases d with
  | r3 m d s t =>
    have hm : m ∈ threeRegisterMnemonics := by simpa [Decoded.wellFormed] using h
    exact (if_pos hm).symm
  | shift m a b sa =>
    obtain (rfl | rfl) | ⟨rfl, -⟩ := by simpa [Decoded.wellFormed] using h
    all_goals rfl
  | jump m target =>
    obtain ⟨rfl | rfl, -⟩ := by simpa [Decoded.wellFormed] using h
    all_goals rfl
  | immS m t s imm =>
    obtain rfl | rfl := by simpa [Decoded.wellFormed] using h
    all_goals rfl
  | immX m t s imm =>
    have hm : m ∈ hexImmediateMnemonics := by simpa [Decoded.wellFormed] using h
    exact (shapeOfMnemonic_of_hexImmediate m hm).symm
  | invalid word => rfl

/-! ### The operands are read back from their text -/

theorem hexStr_injective {n : Nat} : Function.Injective (hexStr (n := n)) := by
  intro v v' h
  apply BitVec.eq_of_toNat_eq
  rw [← (hexStrSpellsTheValue n v).2, ← (hexStrSpellsTheValue n v').2, h]

theorem decStr_injective {n : Nat} : Function.Injective (decStr (n := n)) := by
  intro v v' h
  apply BitVec.eq_of_toNat_eq
  rw [← (decStrSpellsTheValue n v).2, ← (decStrSpellsTheValue n v').2, h]

theorem minus_notMem_decStr {n : Nat} (v : BitVec n) : '-' ∉ decStr v := by
  obtain ⟨⟨-, hdigits, -⟩, -⟩ := decStrSpellsTheValue n v
  exact fun hminus => absurd (hdigits '-' hminus) (by decide)

theorem sDecStr_injective : Function.Injective sDecStr := by
  intro v v' h
  rcases lt_or_ge v.toInt 0 with hv | hv <;> rcases lt_or_ge v'.toInt 0 with hv' | hv'
  · rw [sDecStr_of_neg hv, sDecStr_of_neg hv'] at h
    exact BitVec.neg_inj.1 (decStr_injective (List.tail_eq_of_cons_eq h))
  · rw [sDecStr_of_neg hv, sDecStr_of_nonneg hv'] at h
    exact absurd (h ▸ List.mem_cons_self) (minus_notMem_decStr v')
  · rw [sDecStr_of_nonneg hv, sDecStr_of_neg hv'] at h
    exact absurd (h ▸ List.mem_cons_self) (minus_notMem_decStr v)
  · rw [sDecStr_of_nonneg hv, sDecStr_of_nonneg hv'] at h
    exact decStr_injective h

section

variable {rom : Rom} (hnames : romNamesDistinctAndPlain (romNames rom) = true)
include hnames

theorem comma_notMem_regStr (i : RegIdx) : ',' ∉ regStr rom i := by
  obtain ⟨hplain, -⟩ := Bool.and_eq_true_iff.1 hnames
  have hname := List.all_eq_true.1 hplain _ (List.mem_of_getElem? (getElem_toList_eq_romRead rom i))
  have hcomma : ',' ∉ romRead rom i := fun h => absurd (List.all_eq_true.1 hname _ h) (by decide)
  simpa [regStr] using hcomma

theorem regStr_injective : Function.Injective (regStr rom) := by
  intro i j h
  have hnodup : (romNames rom).toList.Nodup := of_decide_eq_true (Bool.and_eq_true_iff.1 hnames).2
  have hread : (romNames rom).toList[i.toNat]? = (romNames rom).toList[j.toNat]? := by
    rw [getElem_toList_eq_romRead, getElem_toList_eq_romRead, List.tail_eq_of_cons_eq h]
  exact BitVec.eq_of_toNat_eq ((List.getElem?_inj (by simpa using i.isLt) hnodup).1 hread)

end

/-- The operands of a line stand between its first space, its separators and its newline. -/
theorem threeOperandLine_inj {name x y z x' y' z' : Text} (hx : ',' ∉ x) (hx' : ',' ∉ x')
    (hy : ',' ∉ y) (hy' : ',' ∉ y') (h : threeOperandLine name x y z = threeOperandLine name x' y' z') :
    x = x' ∧ y = y' ∧ z = z' := by
  simp only [threeOperandLine, separator, List.append_assoc, List.cons_append, List.nil_append, List.append_cancel_left_eq,
    List.cons.injEq, true_and] at h
  obtain ⟨rfl, hyz⟩ := eq_and_eq_of_append_cons_eq hx hx' h
  obtain ⟨rfl, hz⟩ := eq_and_eq_of_append_cons_eq hy hy' (List.tail_eq_of_cons_eq hyz)
  exact ⟨rfl, rfl, List.append_cancel_right (List.tail_eq_of_cons_eq hz)⟩

/-! ### The statement -/

/-- Settles O38: the first word gives the mnemonic, the mnemonic the shape, and the text of each operand its value. -/
theorem linesTellRecordsApart : Obligations.LinesTellRecordsApart := by
  intro rom hnames d d' hd hd' h
  have hm : recordMnemonic d = recordMnemonic d' := recordMnemonic_eq_of_render_eq h
  have hshape : d.shapeOf = d'.shapeOf := by rw [shapeOf_of_wellFormed hd, shapeOf_of_wellFormed hd', hm]
  have hcomma := comma_notMem_regStr hnames
  cases d with
  | r3 m a b c =>
    cases d' with
    | r3 m' a' b' c' =>
      obtain rfl : m = m' := Option.some.inj hm
      obtain ⟨ha, hb, hc⟩ := threeOperandLine_inj (hcomma a) (hcomma a') (hcomma b) (hcomma b') h
      rw [regStr_injective hnames ha, regStr_injective hnames hb, regStr_injective hnames hc]
    | _ => cases hshape
  | shift m a b sa =>
    cases d' with
    | shift m' a' b' sa' =>
      obtain rfl : m = m' := Option.some.inj hm
      obtain ⟨ha, hb, hsa⟩ := threeOperandLine_inj (hcomma a) (hcomma a') (hcomma b) (hcomma b') h
      rw [regStr_injective hnames ha, regStr_injective hnames hb, decStr_injective hsa]
    | _ => cases hshape
  | jump m target =>
    cases d' with
    | jump m' target' =>
      obtain rfl : m = m' := Option.some.inj hm
      rw [hexStr_injective (List.append_cancel_left (List.append_cancel_right h))]
    | _ => cases hshape
  | immS m a b imm =>
    cases d' with
    | immS m' a' b' imm' =>
      obtain rfl : m = m' := Option.some.inj hm
      obtain ⟨ha, hb, himm⟩ := threeOperandLine_inj (hcomma a) (hcomma a') (hcomma b) (hcomma b') h
      rw [regStr_injective hnames ha, regStr_injective hnames hb, sDecStr_injective himm]
    | _ => cases hshape
  | immX m a b imm =>
    cases d' with
    | immX m' a' b' imm' =>
      obtain rfl : m = m' := Option.some.inj hm
      obtain ⟨ha, hb, himm⟩ := threeOperandLine_inj (hcomma a) (hcomma a') (hcomma b) (hcomma b') h
      rw [regStr_injective hnames ha, regStr_injective hnames hb, hexStr_injective (List.append_cancel_left himm)]
    | _ => cases hshape
  | invalid word =>
    cases d' with
    | invalid word' => rw [hexStr_injective (List.append_cancel_left (List.append_cancel_right h))]
    | _ => cases hshape

end Sys2Proof.Machine
end
